-- ==== Sys2Proof/Word.lean ====
section
/-!
DEFINITION. The value types of the bus block: bytes, halfwords, words, access widths, values that carry their
width, and the events the block sends to the video subsystem (spec/00_scope.md section 6, R7; spec/10_state.md R40).
-/

namespace Sys2Proof

/-- One byte of RAM or BIOS. -/
abbrev Byte := BitVec 8

/-- A `u16` value. -/
abbrev Half := BitVec 16

/-- A `u32` value: an address, a register, a bus value (R4). -/
abbrev Word := BitVec 32

/-- The three addressable value kinds `T` (R7). -/
inductive Width where
  | byte
  | half
  | word
  deriving DecidableEq, Repr

/-- A value of one of the three kinds; the constructor is its kind `T` (R5, R7). -/
inductive Value where
  | byte (b : Byte)
  | half (h : Half)
  | word (w : Word)
  deriving DecidableEq, Repr

/-- One call of the video subsystem, as the output trace records it (R40). A store's width is its value's kind. -/
inductive GpuEvent where
  | gpuLoad (off : Word) (T : Width)
  | gpuStore (off : Word) (v : Value)
  | gp0 (w : Word)
  deriving DecidableEq, Repr

end Sys2Proof
end

