-- ==== Sys2Proof/Config.lean ====
section
/-!
DEFINITION. The implementation parameters of spec/00_scope.md R4, and the values the spec leaves open, which are
constants without a body: no proof can see what they are.
-/

namespace Sys2Proof.Config

/-- `RAM_SIZE`, 2 MiB (R4). -/
abbrev ramSize : Nat := 0x200000

/-- `BIOS_SIZE`, 512 KiB (R4). -/
abbrev biosSize : Nat := 0x80000

/-- `RAM_WINDOW_MASK`: the low 21 bits, word-aligned (R4, R72). -/
abbrev ramWindowMask : Word := 0x001ffffc#32

/-- `OTC_PTR_MASK` (R4, R228). -/
abbrev otcPtrMask : Word := 0x001fffff#32

/-- `OTC_END_MARKER` (R4, R228). -/
abbrev otcEndMarker : Word := 0x00ffffff#32

/-- `LL_END_BIT` (R4, R258). -/
abbrev llEndBit : Nat := 23

/-- `CHCR_DIR_BIT`: 0 to-RAM, 1 from-RAM (R28). PRESUMED, unsafe: the spec has it from general knowledge (D3, log entry 11). -/
abbrev chcrDirBit : Nat := 0

/-- `CHCR_STEP_BIT`: 0 increment, 1 decrement (R29). PRESUMED, unsafe (log entry 11). -/
abbrev chcrStepBit : Nat := 1

/-- `CHCR_SYNC_LSB`: the low bit of the two-bit sync mode (R30). PRESUMED, unsafe (log entry 11). -/
abbrev chcrSyncLsb : Nat := 9

/-- `CHCR_ENABLE_BIT` (R31). PRESUMED, unsafe (log entry 11). -/
abbrev chcrEnableBit : Nat := 24

/-- `CHCR_TRIGGER_BIT` (R31). PRESUMED, unsafe (log entry 11). -/
abbrev chcrTriggerBit : Nat := 28

/-- `BCR_SIZE_LSB` (R114). PRESUMED, unsafe: from general knowledge (D4, log entry 12). -/
abbrev bcrSizeLsb : Nat := 0

/-- `BCR_COUNT_LSB` (R114). PRESUMED, unsafe (log entry 12). -/
abbrev bcrCountLsb : Nat := 16

/-- `DMA_CONTROL_RESET`: OPEN in the spec (R45, R321, D10; log entry 9). -/
opaque dmaControlReset : Word

/-- `DMA_INTERRUPT_RESET`: OPEN in the spec (R45, R321, D10; log entry 9). -/
opaque dmaInterruptReset : Word

/-- `CACHE_CONTROL_RESET`: OPEN in the spec (R45, R321, D11; log entry 9). -/
opaque cacheControlReset : Word

/-- `RAM_INIT`, the launch memory: the byte a RAM offset holds before anything is written there. OPEN (R21, R321, D12; log entry 7). -/
opaque ramInit : Nat → Byte

/-- `BIOS_IMAGE`: the byte a BIOS offset holds where the state lists no byte of an image. OPEN (R22, D12; log entry 8). -/
opaque biosImage : Nat → Byte

/-- What the video subsystem answers to `Gpu.load`: a free value, fresh for every load, for it is applied to a counter the
step advances and to every call made so far, the load's own among them (R40, R146, D26; log entry 10). -/
opaque gpuLoadData : Nat → List GpuEvent → Word

end Sys2Proof.Config
end

