-- ==== Sys2Proof/Syntax.lean ====
section
/-!
DEFINITION. The syntax of the bus block: ports, register selectors, address targets, the operations a caller may
request (spec/30_encoding.md R101, R110), and `Instr`, one constructor for each of the 79 rows of spec/opcode_table.json.
-/

namespace Sys2Proof

/-- The seven ports, one DMA channel each (R24). -/
inductive Port where
  | mdecIn
  | mdecOut
  | gpu
  | cdRom
  | spu
  | pio
  | otc
  deriving DecidableEq, Repr

/-- Load or store (R101). -/
inductive Kind where
  | load
  | store
  deriving DecidableEq, Repr

/-- The three registers of a channel (R110). -/
inductive ChannelReg where
  | base
  | block
  | chctl
  deriving DecidableEq, Repr

/-- What an offset inside the DMA range selects (R110). -/
inductive RegSel where
  | channel (p : Port) (r : ChannelReg)
  | dmaCtl
  | dmaIrq
  | reserved
  deriving DecidableEq, Repr

/-- The twelve ranges of the physical address map (R63). -/
inductive Target where
  | ram
  | exp1
  | bios
  | memCtl
  | ramSize
  | irq
  | dma
  | timers
  | gpu
  | spu
  | exp2
  | cacheCtl
  deriving DecidableEq, Repr

/-- An address range, a pair `(base, length)` (R63). -/
structure Range where
  base : Word
  length : Word
  deriving DecidableEq, Repr

/-- An operation as its caller hands it over. `load` and `store` are the bus operations the CPU issues, the tuples of R101 (the
width of a store is its value's). `dmaRead` and `dmaWrite` are the DMA controller's own register interface, "per-offset register
read/write" (R181), in the formats DMA_READ and DMA_WRITE of R132; the CPU reaches it through the bus alone (log entry 2). -/
inductive Request where
  | load (T : Width) (addr : Word)
  | store (addr : Word) (v : Value)
  | dmaRead (off : BitVec 7)
  | dmaWrite (off : BitVec 7) (val : Word)
  deriving DecidableEq, Repr

/-- Why a request is rejected before it is an instruction. -/
inductive DecodeError where
  /-- The address is no multiple of the access width (R71; log entry 6). -/
  | misaligned
  deriving DecidableEq, Repr

/-- The operations of the block: one constructor for each row of spec/opcode_table.json. Bus rows carry the operands of R101,
register rows their value, and the two engine starts their port; the other engine rows read the engine state (R34). -/
inductive Instr where
  /-- `LOAD.RAM` (R142). -/
  | loadRam (T : Width) (addr : Word)
  /-- `LOAD.BIOS` (R143). -/
  | loadBios (T : Width) (addr : Word)
  /-- `LOAD.IRQ` (R144). -/
  | loadIrq (T : Width) (addr : Word)
  /-- `LOAD.DMA` (R145). -/
  | loadDma (T : Width) (addr : Word)
  /-- `LOAD.GPU` (R146). -/
  | loadGpu (T : Width) (addr : Word)
  /-- `LOAD.TIMERS` (R147). -/
  | loadTimers (T : Width) (addr : Word)
  /-- `LOAD.SPU` (R148). -/
  | loadSpu (T : Width) (addr : Word)
  /-- `LOAD.EXP1` (R149). -/
  | loadExp1 (T : Width) (addr : Word)
  /-- `LOAD.UNMAPPED` (R150). -/
  | loadUnmapped (T : Width) (addr : Word)
  /-- `STORE.RAM` (R152). -/
  | storeRam (addr : Word) (v : Value)
  /-- `STORE.IRQ` (R153). -/
  | storeIrq (addr : Word) (v : Value)
  /-- `STORE.DMA` (R154). -/
  | storeDma (addr : Word) (v : Value)
  /-- `STORE.GPU` (R155). -/
  | storeGpu (addr : Word) (v : Value)
  /-- `STORE.TIMERS` (R156). -/
  | storeTimers (addr : Word) (v : Value)
  /-- `STORE.SPU` (R157). -/
  | storeSpu (addr : Word) (v : Value)
  /-- `STORE.CACHECTL` (R158). -/
  | storeCacheCtl (addr : Word) (v : Value)
  /-- `STORE.MEMCTL` (R159). -/
  | storeMemCtl (addr : Word) (v : Value)
  /-- `STORE.RAMSIZE` (R160). -/
  | storeRamSize (addr : Word) (v : Value)
  /-- `STORE.EXP2` (R161). -/
  | storeExp2 (addr : Word) (v : Value)
  /-- `STORE.UNMAPPED` (R162). -/
  | storeUnmapped (addr : Word) (v : Value)
  /-- `RD.BASE(MdecIn)` (R182). -/
  | rdBaseMdecIn
  /-- `RD.BLOCK(MdecIn)` (R183). -/
  | rdBlockMdecIn
  /-- `RD.CHCTL(MdecIn)` (R184). -/
  | rdChctlMdecIn
  /-- `RD.BASE(MdecOut)` (R182). -/
  | rdBaseMdecOut
  /-- `RD.BLOCK(MdecOut)` (R183). -/
  | rdBlockMdecOut
  /-- `RD.CHCTL(MdecOut)` (R184). -/
  | rdChctlMdecOut
  /-- `RD.BASE(Gpu)` (R182). -/
  | rdBaseGpu
  /-- `RD.BLOCK(Gpu)` (R183). -/
  | rdBlockGpu
  /-- `RD.CHCTL(Gpu)` (R184). -/
  | rdChctlGpu
  /-- `RD.BASE(CdRom)` (R182). -/
  | rdBaseCdRom
  /-- `RD.BLOCK(CdRom)` (R183). -/
  | rdBlockCdRom
  /-- `RD.CHCTL(CdRom)` (R184). -/
  | rdChctlCdRom
  /-- `RD.BASE(Spu)` (R182). -/
  | rdBaseSpu
  /-- `RD.BLOCK(Spu)` (R183). -/
  | rdBlockSpu
  /-- `RD.CHCTL(Spu)` (R184). -/
  | rdChctlSpu
  /-- `RD.BASE(Pio)` (R182). -/
  | rdBasePio
  /-- `RD.BLOCK(Pio)` (R183). -/
  | rdBlockPio
  /-- `RD.CHCTL(Pio)` (R184). -/
  | rdChctlPio
  /-- `RD.BASE(Otc)` (R182). -/
  | rdBaseOtc
  /-- `RD.BLOCK(Otc)` (R183). -/
  | rdBlockOtc
  /-- `RD.CHCTL(Otc)` (R184). -/
  | rdChctlOtc
  /-- `RD.DMACTL` (R185). -/
  | rdDmactl
  /-- `RD.DMAIRQ` (R186). -/
  | rdDmairq
  /-- `RD.RESERVED` (R187). -/
  | rdReserved (off : BitVec 7)
  /-- `WR.BASE(MdecIn)` (R190). -/
  | wrBaseMdecIn (val : Word)
  /-- `WR.BLOCK(MdecIn)` (R191). -/
  | wrBlockMdecIn (val : Word)
  /-- `WR.CHCTL(MdecIn)` (R192). -/
  | wrChctlMdecIn (val : Word)
  /-- `WR.BASE(MdecOut)` (R190). -/
  | wrBaseMdecOut (val : Word)
  /-- `WR.BLOCK(MdecOut)` (R191). -/
  | wrBlockMdecOut (val : Word)
  /-- `WR.CHCTL(MdecOut)` (R192). -/
  | wrChctlMdecOut (val : Word)
  /-- `WR.BASE(Gpu)` (R190). -/
  | wrBaseGpu (val : Word)
  /-- `WR.BLOCK(Gpu)` (R191). -/
  | wrBlockGpu (val : Word)
  /-- `WR.CHCTL(Gpu)` (R192). -/
  | wrChctlGpu (val : Word)
  /-- `WR.BASE(CdRom)` (R190). -/
  | wrBaseCdRom (val : Word)
  /-- `WR.BLOCK(CdRom)` (R191). -/
  | wrBlockCdRom (val : Word)
  /-- `WR.CHCTL(CdRom)` (R192). -/
  | wrChctlCdRom (val : Word)
  /-- `WR.BASE(Spu)` (R190). -/
  | wrBaseSpu (val : Word)
  /-- `WR.BLOCK(Spu)` (R191). -/
  | wrBlockSpu (val : Word)
  /-- `WR.CHCTL(Spu)` (R192). -/
  | wrChctlSpu (val : Word)
  /-- `WR.BASE(Pio)` (R190). -/
  | wrBasePio (val : Word)
  /-- `WR.BLOCK(Pio)` (R191). -/
  | wrBlockPio (val : Word)
  /-- `WR.CHCTL(Pio)` (R192). -/
  | wrChctlPio (val : Word)
  /-- `WR.BASE(Otc)` (R190). -/
  | wrBaseOtc (val : Word)
  /-- `WR.BLOCK(Otc)` (R191). -/
  | wrBlockOtc (val : Word)
  /-- `WR.CHCTL(Otc)` (R192). -/
  | wrChctlOtc (val : Word)
  /-- `WR.DMACTL` (R193). -/
  | wrDmactl (val : Word)
  /-- `WR.DMAIRQ` (R194). -/
  | wrDmairq (val : Word)
  /-- `WR.RESERVED` (R195). -/
  | wrReserved (off : BitVec 7) (val : Word)
  /-- `ENG.BLOCK_START` (R221). -/
  | engBlockStart (p : Port)
  /-- `ENG.BLOCK_GPU_WORD` (R224). -/
  | engBlockGpuWord
  /-- `ENG.BLOCK_FROMRAM_FATAL` (R225). -/
  | engBlockFromRamFatal
  /-- `ENG.BLOCK_OTC_WORD` (R226). -/
  | engBlockOtcWord
  /-- `ENG.BLOCK_TORAM_FATAL` (R227). -/
  | engBlockToRamFatal
  /-- `ENG.BLOCK_DONE` (R230). -/
  | engBlockDone
  /-- `ENG.LIST_START` (R251). -/
  | engListStart (p : Port)
  /-- `ENG.LIST_HEADER` (R254). -/
  | engListHeader
  /-- `ENG.LIST_WORD` (R255). -/
  | engListWord
  /-- `ENG.LIST_NEXT` (R257). -/
  | engListNext
  /-- `ENG.LIST_END` (R259). -/
  | engListEnd
  deriving DecidableEq, Repr

end Sys2Proof
end

