-- ==== Sys2Proof/Decode.lean ====
section
/-!
DEFINITION. The address decoder (spec/20_memory.md), the DMA offset decoder and the request decoder (spec/30_encoding.md), total
on every request and rejecting by name, and after them the encoder and the reading of spec/opcode_table.json's words.
-/

namespace Sys2Proof

/-- The width of a kind in bytes (R7). -/
def Width.bytes : Width → Nat
  | .byte => 1
  | .half => 2
  | .word => 4

/-- The kind of a value. -/
def Value.width : Value → Width
  | .byte _ => .byte
  | .half _ => .half
  | .word _ => .word

/-- Natural alignment, `addr mod width(T) = 0` (R71). -/
def aligned (T : Width) (addr : Word) : Bool := addr.toNat % T.bytes == 0

/-- `REGION_MASK`, indexed by address bits 31:29 (R61). -/
def regionMask (region : BitVec 3) : Word :=
  if region = 4#3 then 0x7fffffff#32
  else if region = 5#3 then 0x1fffffff#32
  else 0xffffffff#32

/-- `mask_region(addr) = addr & REGION_MASK[addr[31:29]]` (R61). -/
def maskRegion (addr : Word) : Word := addr &&& regionMask (addr.extractLsb' 29 3)

/-- The base and length of each range (R63). -/
def Target.range : Target → Range
  | .ram => ⟨0x00000000#32, 0x200000#32⟩
  | .exp1 => ⟨0x1f000000#32, 0x80000#32⟩
  | .bios => ⟨0x1fc00000#32, 0x80000#32⟩
  | .memCtl => ⟨0x1f801000#32, 0x24#32⟩
  | .ramSize => ⟨0x1f801060#32, 0x4#32⟩
  | .irq => ⟨0x1f801070#32, 0x8#32⟩
  | .dma => ⟨0x1f801080#32, 0x80#32⟩
  | .timers => ⟨0x1f801100#32, 0x30#32⟩
  | .gpu => ⟨0x1f801810#32, 0x8#32⟩
  | .spu => ⟨0x1f801c00#32, 0x280#32⟩
  | .exp2 => ⟨0x1f802000#32, 0x42#32⟩
  | .cacheCtl => ⟨0xfffe0130#32, 0x4#32⟩

/-- `contains((base, length), a)`: the zero-based offset if `base <= a` and `a - base < length` (R11 (e), R64). -/
def Range.contains (r : Range) (a : Word) : Option Word :=
  if r.base ≤ a ∧ a - r.base < r.length then some (a - r.base) else none

/-- The ranges a load tries, in the order of R66. -/
def loadTargets : List Target := [.ram, .bios, .irq, .dma, .gpu, .timers, .spu, .exp1]

/-- The ranges a store tries, in the order of R67. -/
def storeTargets : List Target :=
  [.ram, .irq, .dma, .gpu, .timers, .spu, .cacheCtl, .memCtl, .ramSize, .exp2]

/-- The first range of a list that holds a masked address ("first match wins", R66). -/
def lookup (ts : List Target) (a : Word) : Option Target :=
  ts.find? fun t => (t.range.contains a).isSome

/-- The target of a load at an address as the CPU issues it (R60, R66). -/
def loadTarget (addr : Word) : Option Target := lookup loadTargets (maskRegion addr)

/-- The target of a store at an address as the CPU issues it (R60, R67). -/
def storeTarget (addr : Word) : Option Target := lookup storeTargets (maskRegion addr)

/-- `major = off[6:4]` (R111). -/
def dmaMajor (off : BitVec 7) : BitVec 3 := off.extractLsb' 4 3

/-- `minor = off[3:0]` (R111). -/
def dmaMinor (off : BitVec 7) : BitVec 4 := off.extractLsb' 0 4

/-- `PORT_OF_MAJOR`; major 7 is no channel (R112). -/
def portOfMajor (major : BitVec 3) : Option Port :=
  match major.toNat with
  | 0 => some .mdecIn
  | 1 => some .mdecOut
  | 2 => some .gpu
  | 3 => some .cdRom
  | 4 => some .spu
  | 5 => some .pio
  | 6 => some .otc
  | _ => none

/-- The register selected by `(major, minor)`; "any other major/minor combination" is reserved (R110, R180). -/
def regSel (off : BitVec 7) : RegSel :=
  match portOfMajor (dmaMajor off), (dmaMinor off).toNat with
  | some p, 0x0 => .channel p .base
  | some p, 0x4 => .channel p .block
  | some p, 0x8 => .channel p .chctl
  | some _, _ => .reserved
  | none, 0x0 => .dmaCtl
  | none, 0x4 => .dmaIrq
  | none, _ => .reserved

/-- The row of a load with a target of R66. -/
def loadInstr (T : Width) (addr : Word) : Option Target → Instr
  | some .ram => .loadRam T addr
  | some .bios => .loadBios T addr
  | some .irq => .loadIrq T addr
  | some .dma => .loadDma T addr
  | some .gpu => .loadGpu T addr
  | some .timers => .loadTimers T addr
  | some .spu => .loadSpu T addr
  | some .exp1 => .loadExp1 T addr
  | _ => .loadUnmapped T addr

/-- The row of a store with a target of R67. -/
def storeInstr (addr : Word) (v : Value) : Option Target → Instr
  | some .ram => .storeRam addr v
  | some .irq => .storeIrq addr v
  | some .dma => .storeDma addr v
  | some .gpu => .storeGpu addr v
  | some .timers => .storeTimers addr v
  | some .spu => .storeSpu addr v
  | some .cacheCtl => .storeCacheCtl addr v
  | some .memCtl => .storeMemCtl addr v
  | some .ramSize => .storeRamSize addr v
  | some .exp2 => .storeExp2 addr v
  | _ => .storeUnmapped addr v

/-- The row that reads a channel's register (R180). -/
def rdChannelInstr : Port → ChannelReg → Instr
  | .mdecIn, .base => .rdBaseMdecIn
  | .mdecIn, .block => .rdBlockMdecIn
  | .mdecIn, .chctl => .rdChctlMdecIn
  | .mdecOut, .base => .rdBaseMdecOut
  | .mdecOut, .block => .rdBlockMdecOut
  | .mdecOut, .chctl => .rdChctlMdecOut
  | .gpu, .base => .rdBaseGpu
  | .gpu, .block => .rdBlockGpu
  | .gpu, .chctl => .rdChctlGpu
  | .cdRom, .base => .rdBaseCdRom
  | .cdRom, .block => .rdBlockCdRom
  | .cdRom, .chctl => .rdChctlCdRom
  | .spu, .base => .rdBaseSpu
  | .spu, .block => .rdBlockSpu
  | .spu, .chctl => .rdChctlSpu
  | .pio, .base => .rdBasePio
  | .pio, .block => .rdBlockPio
  | .pio, .chctl => .rdChctlPio
  | .otc, .base => .rdBaseOtc
  | .otc, .block => .rdBlockOtc
  | .otc, .chctl => .rdChctlOtc

/-- The row that writes a channel's register (R180). -/
def wrChannelInstr (val : Word) : Port → ChannelReg → Instr
  | .mdecIn, .base => .wrBaseMdecIn val
  | .mdecIn, .block => .wrBlockMdecIn val
  | .mdecIn, .chctl => .wrChctlMdecIn val
  | .mdecOut, .base => .wrBaseMdecOut val
  | .mdecOut, .block => .wrBlockMdecOut val
  | .mdecOut, .chctl => .wrChctlMdecOut val
  | .gpu, .base => .wrBaseGpu val
  | .gpu, .block => .wrBlockGpu val
  | .gpu, .chctl => .wrChctlGpu val
  | .cdRom, .base => .wrBaseCdRom val
  | .cdRom, .block => .wrBlockCdRom val
  | .cdRom, .chctl => .wrChctlCdRom val
  | .spu, .base => .wrBaseSpu val
  | .spu, .block => .wrBlockSpu val
  | .spu, .chctl => .wrChctlSpu val
  | .pio, .base => .wrBasePio val
  | .pio, .block => .wrBlockPio val
  | .pio, .chctl => .wrChctlPio val
  | .otc, .base => .wrBaseOtc val
  | .otc, .block => .wrBlockOtc val
  | .otc, .chctl => .wrChctlOtc val

/-- The row of a word read at an offset of the DMA range (R180). -/
def rdInstr (off : BitVec 7) : Instr :=
  match regSel off with
  | .channel p r => rdChannelInstr p r
  | .dmaCtl => .rdDmactl
  | .dmaIrq => .rdDmairq
  | .reserved => .rdReserved off

/-- The row of a word write at an offset of the DMA range (R180). -/
def wrInstr (off : BitVec 7) (val : Word) : Instr :=
  match regSel off with
  | .channel p r => wrChannelInstr val p r
  | .dmaCtl => .wrDmactl val
  | .dmaIrq => .wrDmairq val
  | .reserved => .wrReserved off val

/-- A register offset a word access can name: a multiple of 4 (R71, R110). -/
def alignedOffset (off : BitVec 7) : Bool := off.toNat % 4 == 0

/-- The instruction a request stands for. Alignment is checked first (R297 (1)), then the address or the offset is looked up; an
address no range answers is the row UNMAPPED, an instruction of its own (R150, R162). -/
def decode : Request → Except DecodeError Instr
  | .load T addr =>
    if aligned T addr then .ok (loadInstr T addr (loadTarget addr)) else .error .misaligned
  | .store addr v =>
    if aligned v.width addr then .ok (storeInstr addr v (storeTarget addr)) else .error .misaligned
  | .dmaRead off => if alignedOffset off then .ok (rdInstr off) else .error .misaligned
  | .dmaWrite off val => if alignedOffset off then .ok (wrInstr off val) else .error .misaligned

/-- The request that encodes an instruction, from the formats of R101 and the offsets of the table in R110. Engine rows have no
encoding: they are selected by the engine state (R132). -/
def encode : Instr → Option Request
  | .loadRam T addr => some (.load T addr)
  | .loadBios T addr => some (.load T addr)
  | .loadIrq T addr => some (.load T addr)
  | .loadDma T addr => some (.load T addr)
  | .loadGpu T addr => some (.load T addr)
  | .loadTimers T addr => some (.load T addr)
  | .loadSpu T addr => some (.load T addr)
  | .loadExp1 T addr => some (.load T addr)
  | .loadUnmapped T addr => some (.load T addr)
  | .storeRam addr v => some (.store addr v)
  | .storeIrq addr v => some (.store addr v)
  | .storeDma addr v => some (.store addr v)
  | .storeGpu addr v => some (.store addr v)
  | .storeTimers addr v => some (.store addr v)
  | .storeSpu addr v => some (.store addr v)
  | .storeCacheCtl addr v => some (.store addr v)
  | .storeMemCtl addr v => some (.store addr v)
  | .storeRamSize addr v => some (.store addr v)
  | .storeExp2 addr v => some (.store addr v)
  | .storeUnmapped addr v => some (.store addr v)
  | .rdBaseMdecIn => some (.dmaRead 0x00#7)
  | .rdBlockMdecIn => some (.dmaRead 0x04#7)
  | .rdChctlMdecIn => some (.dmaRead 0x08#7)
  | .rdBaseMdecOut => some (.dmaRead 0x10#7)
  | .rdBlockMdecOut => some (.dmaRead 0x14#7)
  | .rdChctlMdecOut => some (.dmaRead 0x18#7)
  | .rdBaseGpu => some (.dmaRead 0x20#7)
  | .rdBlockGpu => some (.dmaRead 0x24#7)
  | .rdChctlGpu => some (.dmaRead 0x28#7)
  | .rdBaseCdRom => some (.dmaRead 0x30#7)
  | .rdBlockCdRom => some (.dmaRead 0x34#7)
  | .rdChctlCdRom => some (.dmaRead 0x38#7)
  | .rdBaseSpu => some (.dmaRead 0x40#7)
  | .rdBlockSpu => some (.dmaRead 0x44#7)
  | .rdChctlSpu => some (.dmaRead 0x48#7)
  | .rdBasePio => some (.dmaRead 0x50#7)
  | .rdBlockPio => some (.dmaRead 0x54#7)
  | .rdChctlPio => some (.dmaRead 0x58#7)
  | .rdBaseOtc => some (.dmaRead 0x60#7)
  | .rdBlockOtc => some (.dmaRead 0x64#7)
  | .rdChctlOtc => some (.dmaRead 0x68#7)
  | .rdDmactl => some (.dmaRead 0x70#7)
  | .rdDmairq => some (.dmaRead 0x74#7)
  | .rdReserved off => some (.dmaRead off)
  | .wrBaseMdecIn val => some (.dmaWrite 0x00#7 val)
  | .wrBlockMdecIn val => some (.dmaWrite 0x04#7 val)
  | .wrChctlMdecIn val => some (.dmaWrite 0x08#7 val)
  | .wrBaseMdecOut val => some (.dmaWrite 0x10#7 val)
  | .wrBlockMdecOut val => some (.dmaWrite 0x14#7 val)
  | .wrChctlMdecOut val => some (.dmaWrite 0x18#7 val)
  | .wrBaseGpu val => some (.dmaWrite 0x20#7 val)
  | .wrBlockGpu val => some (.dmaWrite 0x24#7 val)
  | .wrChctlGpu val => some (.dmaWrite 0x28#7 val)
  | .wrBaseCdRom val => some (.dmaWrite 0x30#7 val)
  | .wrBlockCdRom val => some (.dmaWrite 0x34#7 val)
  | .wrChctlCdRom val => some (.dmaWrite 0x38#7 val)
  | .wrBaseSpu val => some (.dmaWrite 0x40#7 val)
  | .wrBlockSpu val => some (.dmaWrite 0x44#7 val)
  | .wrChctlSpu val => some (.dmaWrite 0x48#7 val)
  | .wrBasePio val => some (.dmaWrite 0x50#7 val)
  | .wrBlockPio val => some (.dmaWrite 0x54#7 val)
  | .wrChctlPio val => some (.dmaWrite 0x58#7 val)
  | .wrBaseOtc val => some (.dmaWrite 0x60#7 val)
  | .wrBlockOtc val => some (.dmaWrite 0x64#7 val)
  | .wrChctlOtc val => some (.dmaWrite 0x68#7 val)
  | .wrDmactl val => some (.dmaWrite 0x70#7 val)
  | .wrDmairq val => some (.dmaWrite 0x74#7 val)
  | .wrReserved off val => some (.dmaWrite off val)
  | .engBlockStart _ => none
  | .engBlockGpuWord => none
  | .engBlockFromRamFatal => none
  | .engBlockOtcWord => none
  | .engBlockToRamFatal => none
  | .engBlockDone => none
  | .engListStart _ => none
  | .engListHeader => none
  | .engListWord => none
  | .engListNext => none
  | .engListEnd => none

/-- The widest kind an address is aligned for. -/
def widestWidth (addr : Word) : Width :=
  if aligned .word addr then .word else if aligned .half addr then .half else .byte

/-- The value zero of a kind. -/
def zeroValue : Width → Value
  | .byte => .byte 0#8
  | .half => .half 0#16
  | .word => .word 0#32

/-- The request a word of spec/opcode_table.json stands for (log entry 19). Up to 8 bits it is the offset of a DMA_READ or
DMA_WRITE row, under the row's mask 0x7f; above, the masked address of a BUS_LOAD or BUS_STORE row. The table gives neither the
kind nor the width nor the value any bit: the kind is load where a load range answers the address and store where only a store
range does, the width is the widest the address is aligned for, and a value is zero. -/
def tableRequest (nbits w : Nat) : Request :=
  if nbits ≤ 8 then .dmaRead (BitVec.ofNat 7 w)
  else
    let addr := BitVec.ofNat 32 w
    match loadTarget addr, storeTarget addr with
    | none, some _ => .store addr (zeroValue (widestWidth addr))
    | _, _ => .load (widestWidth addr) addr

/-- The instruction the decoder reads from a word of spec/opcode_table.json. -/
def decodeTableWord (nbits w : Nat) : Option Instr := (decode (tableRequest nbits w)).toOption

end Sys2Proof
end

