-- ==== Sys2Proof/Machine/State.lean ====
section
/-!
DEFINITION. The state of the bus block (spec/10_state.md R20 to R45), the fatal causes (spec/60_exceptions.md R281 to R292), the
reasons a step stops, and the state after reset. Everything is plain data.
-/

namespace Sys2Proof.Machine

/-- A byte array held as the list of the offsets that were written, strictly rising. An offset it does not list reads as no value
at this level; what then stands there is the launch memory (RAM) or the BIOS image (log entries 7 and 8). -/
abbrev Memory := List Host.Cell

/-- The registers of one DMA channel (R25 to R27). -/
structure Channel where
  base : Word
  blockSize : Half
  blockCount : Half
  control : Word
  deriving DecidableEq, Repr

/-- The seven channels, indexed by port (R24). -/
structure Channels where
  mdecIn : Channel
  mdecOut : Channel
  gpu : Channel
  cdRom : Channel
  spu : Channel
  pio : Channel
  otc : Channel
  deriving DecidableEq, Repr

/-- The DMA controller register file (R24, R36, R37). -/
structure Dma where
  ch : Channels
  control : Word
  interrupt : Word
  deriving DecidableEq, Repr

/-- The sequencing state of the transfer engine (R34). -/
inductive Engine where
  | idle
  | block (p : Port) (addr : Word) (remaining : Word)
  | listHeader (cursor : Word)
  | listPayload (addr : Word) (left : Byte) (header : Word)
  deriving DecidableEq, Repr

/-- The fatal causes F1 to F12, each with what the halt latch records (R281 to R292). -/
inductive Cause where
  /-- F1 (R281). -/
  | unmappedLoad (addr masked : Word) (T : Width)
  /-- F2; the width is the value's (R282). -/
  | unmappedStore (addr masked : Word) (v : Value)
  /-- F3 (R283). -/
  | cacheControlWidth (addr : Word) (T : Width)
  /-- F4 (R284). -/
  | dmaAccessWidth (kind : Kind) (off : BitVec 7) (T : Width)
  /-- F5 (R285). -/
  | dmaBadRegister (kind : Kind) (off : BitVec 7)
  /-- F6 (R286). -/
  | dmaUnknownSyncMode (p : Port) (val : Word)
  /-- F7 (R287). -/
  | dmaBlockDestPort (p : Port)
  /-- F8 (R288). -/
  | dmaBlockSourcePort (p : Port)
  /-- F9 (R289). -/
  | dmaListPort (p : Port)
  /-- F10 (R290). -/
  | dmaListDirection (p : Port)
  /-- F11, never raised from a state a run reaches (R233, R291). -/
  | dmaSizeIndeterminate (p : Port)
  /-- F12 (R292). -/
  | expansionBaseMismatch (addr off val : Word)
  deriving DecidableEq, Repr

/-- What the block hands back when a bus operation or register access returns: a load's value, or the bare return of a store
(R140, R141, R164; log entry 3). -/
inductive Reply where
  | loaded (v : Value)
  | stored
  deriving DecidableEq, Repr

/-- The state of the block (R20), and four fields of the model's own: `gpuFree`, `requests`, `reply` and the listed part of
`bios`, which the spec calls a parameter. -/
structure State where
  /-- Main memory (R21). -/
  ram : Memory
  /-- The boot ROM, read-only (R22; log entry 8). -/
  bios : Memory
  /-- The cache-control register (R23). -/
  cacheControl : Word
  /-- The DMA controller (R24). -/
  dma : Dma
  /-- The transfer engine (R34). -/
  eng : Engine
  /-- The halt latch (R35). -/
  halt : Option Cause
  /-- The output trace toward the video subsystem, oldest first (R40). -/
  gpuTrace : List GpuEvent
  /-- How many free values loads from the video window have taken (log entry 10). -/
  gpuFree : Nat
  /-- The operations the CPU has still to issue, next first: a bus script (R6, R130; log entry 1). -/
  requests : List Request
  /-- What the block last handed back; none while an operation is in progress and before the first (log entry 3). -/
  reply : Option Reply
  deriving DecidableEq, Repr

/-- Why the machine stops with a fault. -/
inductive Fault where
  /-- Raised by `step`, and by every engine row, in a state whose halt latch is set: "no agent steps from it" (R35, R300). Safe. -/
  | halted (c : Cause)
  deriving DecidableEq, Repr

/-- Why an instruction is given no meaning in a state. -/
inductive Refusal where
  /-- Raised by `exec` for a row that has no meaning yet; no arm raises it. Safe. -/
  | notModelled (mnemonic : String)
  /-- Raised by `step` and by every bus and register row for a misaligned access: `refuse Misaligned` (R71, R304 (a)). Safe. -/
  | misaligned
  /-- Raised by every bus and register row executed while `halt` is set or `eng` is not `Idle` (R304 (b)). Safe. -/
  | notAccepted
  /-- Raised by a bus or register row whose operand lies outside the row, a term no decoding gives (log entry 18). Safe. -/
  | wrongTarget
  /-- Raised by an engine row executed where the engine state does not select it (R132; log entry 18). Safe. -/
  | notSelected
  deriving DecidableEq, Repr

/-- What every meaning answers. -/
abbrev Out := Host.Outcome State Fault Refusal

/-- A channel after reset: all-zero registers (R45, R320). -/
def Channel.reset : Channel := ⟨0#32, 0#16, 0#16, 0#32⟩

/-- The state after reset, "controller construction" (R45, R320). The open parameters are the constants of Config (log entries
7 to 9); the model's own fields start empty (log entries 1, 3, 10). -/
def State.reset : State where
  ram := []
  bios := []
  cacheControl := Config.cacheControlReset
  dma := {
    ch := ⟨.reset, .reset, .reset, .reset, .reset, .reset, .reset⟩
    control := Config.dmaControlReset
    interrupt := Config.dmaInterruptReset }
  eng := .idle
  halt := none
  gpuTrace := []
  gpuFree := 0
  requests := []
  reply := none

end Sys2Proof.Machine
end

