-- ==== Sys2Proof/Machine/Operands.lean ====
section
/-!
DEFINITION. Operand assembly (spec/30_encoding.md R126): widening and narrowing, the bytes of a value, the engine's address
masks and words, and the fields of a list header.
-/

namespace Sys2Proof.Machine

/-- `width_mask(T)` (R7). -/
def widthMask : Width → Word
  | .byte => 0x000000ff#32
  | .half => 0x0000ffff#32
  | .word => 0xffffffff#32

/-- `from_u32<T>(v)`: the low bits are kept (R8). -/
def fromU32 : Width → Word → Value
  | .byte, v => .byte (v.setWidth 8)
  | .half, v => .half (v.setWidth 16)
  | .word, v => .word v

/-- `as_u32<T>(x)`: zero extension (R9). -/
def asU32 : Value → Word
  | .byte b => b.setWidth 32
  | .half h => h.setWidth 32
  | .word w => w

/-- A value's bytes, the least significant first (R70; log entry 13). -/
def valueBytes : Value → List Byte
  | .byte b => [b]
  | .half h => [h.extractLsb' 0 8, h.extractLsb' 8 8]
  | .word w => [w.extractLsb' 0 8, w.extractLsb' 8 8, w.extractLsb' 16 8, w.extractLsb' 24 8]

/-- The word of four bytes, the least significant first (R70). -/
def wordOfBytes (b0 b1 b2 b3 : Byte) : Word := b3 ++ b2 ++ b1 ++ b0

/-- `MemRead(space, off, n)` over the bytes of a space (R70). -/
def memRead (space : Nat → Byte) (off : Nat) : Width → Value
  | .byte => .byte (space off)
  | .half => .half (space (off + 1) ++ space off)
  | .word => .word (wordOfBytes (space off) (space (off + 1)) (space (off + 2)) (space (off + 3)))

/-- An engine address reduced to the RAM window (R72, R223). -/
def windowAddr (addr : Word) : Word := addr &&& Config.ramWindowMask

/-- The word the ordering-table-clear port produces: the end marker last, else a pointer made of the unmasked running address
(R228; log entry 20). -/
def otcWord (addr remaining : Word) : Word :=
  if remaining = 1#32 then Config.otcEndMarker else (addr - 4#32) &&& Config.otcPtrMask

/-- `header[31:24]`, the packet word count (R120, R254). -/
def headerCount (header : Word) : Byte := header.extractLsb' 24 8

/-- The end-of-list test: bit 23 alone (R120, R258). -/
def headerEnd (header : Word) : Bool := header.getLsbD Config.llEndBit

/-- The size half of a block-control value (R114; log entry 12). -/
def blockSizeOf (val : Word) : Half := val.extractLsb' Config.bcrSizeLsb 16

/-- The count half of a block-control value (R114; log entry 12). -/
def blockCountOf (val : Word) : Half := val.extractLsb' Config.bcrCountLsb 16

/-- The block-control word a read returns (R114, R183). -/
def blockWord (size count : Half) : Word :=
  (count.setWidth 32 <<< Config.bcrCountLsb) ||| (size.setWidth 32 <<< Config.bcrSizeLsb)

end Sys2Proof.Machine
end

