-- ==== Sys2Proof/Machine/Flags.lean ====
section
/-!
DEFINITION. The derived fields and predicates, the block's only "flags": the five fields of a channel's control word, `active`,
the transfer size, and the two flags of cache control (spec/10_state.md R28 to R33, R38).
-/

namespace Sys2Proof.Machine

/-- The transfer direction (R28). -/
inductive Direction where
  | toRam
  | fromRam
  deriving DecidableEq, Repr

/-- The address step (R29). -/
inductive StepDir where
  | increment
  | decrement
  deriving DecidableEq, Repr

/-- The synchronisation modes (R30). -/
inductive SyncMode where
  | manual
  | request
  | linkedList
  deriving DecidableEq, Repr

/-- `direction(p)` of a control word (R28). -/
def directionOf (ctl : Word) : Direction :=
  if ctl.getLsbD Config.chcrDirBit then .fromRam else .toRam

/-- `step(p)` of a control word (R29). -/
def stepOf (ctl : Word) : StepDir :=
  if ctl.getLsbD Config.chcrStepBit then .decrement else .increment

/-- The two-bit sync field (R30). -/
def syncField (ctl : Word) : BitVec 2 := ctl.extractLsb' Config.chcrSyncLsb 2

/-- `sync(p)` of a control word; the field's value 3 names no mode (R30, R196). -/
def syncOf (ctl : Word) : Option SyncMode :=
  match (syncField ctl).toNat with
  | 0 => some .manual
  | 1 => some .request
  | 2 => some .linkedList
  | _ => none

/-- `enable(p)` (R31). -/
def enableOf (ctl : Word) : Bool := ctl.getLsbD Config.chcrEnableBit

/-- `trigger(p)` (R31). -/
def triggerOf (ctl : Word) : Bool := ctl.getLsbD Config.chcrTriggerBit

/-- `active(p)` of a control word: enabled, and manual and triggered, or request, or linked-list (R32). A word whose sync field
is 3, which is never stored (R196), meets none of the three (log entry 14). -/
def activeOf (ctl : Word) : Bool :=
  enableOf ctl &&
    match syncOf ctl with
    | some .manual => triggerOf ctl
    | some .request => true
    | some .linkedList => true
    | none => false

/-- `transfer_size(p)` (R33). -/
def transferSize (c : Channel) : Option Word :=
  match syncOf c.control with
  | some .manual => some (c.blockSize.setWidth 32)
  | some .request => some (c.blockSize.setWidth 32 * c.blockCount.setWidth 32)
  | some .linkedList => none
  | none => none

/-- The step value, +4 or -4 modulo 2^32 (R126 (d), R222). -/
def stepValue (ctl : Word) : Word :=
  match stepOf ctl with
  | .increment => 0x00000004#32
  | .decrement => 0xfffffffc#32

/-- The control word after `done`: ENABLE and TRIGGER cleared, every other bit kept (R204; log entry 16). -/
def doneControl (ctl : Word) : Word :=
  ctl &&& ~~~((1#32 <<< Config.chcrEnableBit) ||| (1#32 <<< Config.chcrTriggerBit))

/-- `icache_enabled`, bit 11 of cache control (R38). -/
def State.icacheEnabled (s : State) : Bool := s.cacheControl.getLsbD 11

/-- `tag_test_mode`, bit 2 of cache control (R38). -/
def State.tagTestMode (s : State) : Bool := s.cacheControl.getLsbD 2

end Sys2Proof.Machine
end

