-- ==== Sys2Proof/Machine/Ops.lean ====
section
/-!
DEFINITION. The named operations over memory, registers, the video subsystem and the halt latch that the meanings share.
-/

namespace Sys2Proof.Machine

/-- The byte a memory lists at an offset. -/
def Memory.get? : Memory → Nat → Option Byte
  | [], _ => none
  | (a, b) :: m, x => if a = x then some b else Memory.get? m x

/-- Write one byte, keeping the offsets strictly rising. -/
def Memory.put : Memory → Nat → Byte → Memory
  | [], x, v => [(x, v)]
  | (a, b) :: m, x, v =>
    if x < a then (x, v) :: (a, b) :: m
    else if x = a then (x, v) :: m
    else (a, b) :: Memory.put m x v

/-- Write bytes at consecutive offsets. -/
def Memory.putBytes : Memory → Nat → List Byte → Memory
  | m, _, [] => m
  | m, x, v :: vs => Memory.putBytes (Memory.put m x v) (x + 1) vs

/-- Strictly rising from a bound. -/
def Memory.risesFrom : Nat → Memory → Bool
  | _, [] => true
  | lo, (a, _) :: m => decide (lo ≤ a) && Memory.risesFrom (a + 1) m

/-- The canonical form: offsets strictly rising and inside the array. -/
def Memory.wf (m : Memory) (size : Nat) : Bool :=
  Memory.risesFrom 0 m && m.all fun c => decide (c.1 < size)

/-- The byte of RAM at an offset: the one written last, else the launch memory's (R21, R321; log entry 7). -/
def State.ramByte (s : State) (a : Nat) : Byte := (Memory.get? s.ram a).getD (Config.ramInit a)

/-- The byte of BIOS at an offset (R22; log entry 8). -/
def State.biosByte (s : State) (a : Nat) : Byte := (Memory.get? s.bios a).getD (Config.biosImage a)

/-- `MemRead(ram, off, n)` (R70). -/
def State.ramRead (s : State) (off : Word) (T : Width) : Value := memRead s.ramByte off.toNat T

/-- `MemRead(bios, off, n)` (R70). -/
def State.biosRead (s : State) (off : Word) (T : Width) : Value := memRead s.biosByte off.toNat T

/-- `MemRead(ram, off, 4)` as a word (R70). -/
def State.ramWord (s : State) (off : Word) : Word := asU32 (s.ramRead off .word)

/-- `MemWrite(ram, off, n, v)` (R70). -/
def State.ramWrite (s : State) (off : Word) (v : Value) : State :=
  { s with ram := Memory.putBytes s.ram off.toNat (valueBytes v) }

/-- The channel of a port (R24). -/
def Channels.get (cs : Channels) : Port → Channel
  | .mdecIn => cs.mdecIn
  | .mdecOut => cs.mdecOut
  | .gpu => cs.gpu
  | .cdRom => cs.cdRom
  | .spu => cs.spu
  | .pio => cs.pio
  | .otc => cs.otc

/-- Replace the channel of a port. -/
def Channels.set (cs : Channels) : Port → Channel → Channels
  | .mdecIn, c => { cs with mdecIn := c }
  | .mdecOut, c => { cs with mdecOut := c }
  | .gpu, c => { cs with gpu := c }
  | .cdRom, c => { cs with cdRom := c }
  | .spu, c => { cs with spu := c }
  | .pio, c => { cs with pio := c }
  | .otc, c => { cs with otc := c }

/-- `dma.ch[p]`. -/
def State.ch (s : State) (p : Port) : Channel := s.dma.ch.get p

/-- Replace `dma.ch[p]`. -/
def State.setCh (s : State) (p : Port) (c : Channel) : State :=
  { s with dma := { s.dma with ch := s.dma.ch.set p c } }

/-- `dma.ch[p].base <- val`: all 32 bits (R25, R190). -/
def State.setBase (s : State) (p : Port) (val : Word) : State :=
  s.setCh p { s.ch p with base := val }

/-- `block_size <- val[15:0]; block_count <- val[31:16]` (R191). -/
def State.setBlock (s : State) (p : Port) (val : Word) : State :=
  s.setCh p { s.ch p with blockSize := blockSizeOf val, blockCount := blockCountOf val }

/-- `dma.ch[p].control <- val`: all 32 bits (R27, R192). -/
def State.setControl (s : State) (p : Port) (val : Word) : State :=
  s.setCh p { s.ch p with control := val }

/-- `dma.control <- val` (R36, R193). -/
def State.setDmaControl (s : State) (val : Word) : State :=
  { s with dma := { s.dma with control := val } }

/-- `dma.interrupt <- val` (R37, R194). -/
def State.setDmaInterrupt (s : State) (val : Word) : State :=
  { s with dma := { s.dma with interrupt := val } }

/-- `cache_control <- val` (R23, R158). -/
def State.setCacheControl (s : State) (val : Word) : State := { s with cacheControl := val }

/-- `eng <- e` (R34). -/
def State.setEng (s : State) (e : Engine) : State := { s with eng := e }

/-- Append one event to the output trace (R40, R85). -/
def State.emit (s : State) (e : GpuEvent) : State := { s with gpuTrace := s.gpuTrace ++ [e] }

/-- `active(p)` (R32). -/
def State.active (s : State) (p : Port) : Bool := activeOf (s.ch p).control

/-- Whether an operation of the CPU is turned away: the block is halted or the engine runs (R34, R35, R304 (b)). -/
def State.busy (s : State) : Bool := s.halt.isSome || s.eng != .idle

/-- An operation begins: nothing has been handed back for it (log entry 3). -/
def State.begin (s : State) : State := { s with reply := none }

/-- What the state holds once an operation has returned (log entry 3). -/
def State.returned (s : State) (r : Reply) : State := { s with reply := some r }

/-- An operation returns. -/
def returns (r : Reply) (s : State) : Out := .next (s.returned r)

/-- A load returns a value (R164). -/
def loads (v : Value) (s : State) : Out := returns (.loaded v) s

/-- A store returns (R141). -/
def stores (s : State) : Out := returns .stored s

/-- `raise Fatal.<Cause>(info)`: the latch is set and the operation ends there, with what was written before still written; it
hands nothing back (R300, R302; log entry 5). There is no return from it (R301). -/
def raise (c : Cause) (s : State) : Out := .next { s with halt := some c }

/-- `Done(p)` (R204) and the return of the store that started the transfer (R200). -/
def done (p : Port) (s : State) : Out :=
  stores ((s.setControl p (doneControl (s.ch p).control)).setEng .idle)

/-- `Gpu.load(off, n)`: the event, and a free value of the width (R40, R146; log entry 10). -/
def gpuLoad (off : Word) (T : Width) (s : State) : Out :=
  let t := s.emit (.gpuLoad off T)
  loads (fromU32 T (Config.gpuLoadData s.gpuFree t.gpuTrace)) { t with gpuFree := s.gpuFree + 1 }

/-- The front of a bus operation (R140, R141): accepted, aligned, and inside the row's range; the rest gets the offset. -/
def busFront (T : Width) (addr : Word) (t : Target) (s : State) (k : Word → State → Out) : Out :=
  if s.busy then .refused .notAccepted
  else if aligned T addr then
    match t.range.contains (maskRegion addr) with
    | some o => k o s.begin
    | none => .refused .wrongTarget
  else .refused .misaligned

/-- The front of a bus operation no range answers (R150, R162). -/
def unmappedFront (T : Width) (addr : Word) (t : Option Target) (s : State) (k : State → Out) : Out :=
  if s.busy then .refused .notAccepted
  else if aligned T addr then
    if t = none then k s.begin else .refused .wrongTarget
  else .refused .misaligned

/-- The front of a register access: accepted (R140, R141, R180). -/
def regFront (s : State) (k : State → Out) : Out :=
  if s.busy then .refused .notAccepted else k s.begin

/-- The front of a reserved register access: accepted, aligned, and at an offset that selects no register (R187, R195). -/
def reservedFront (off : BitVec 7) (s : State) (k : State → Out) : Out :=
  regFront s fun s =>
    if alignedOffset off then
      if regSel off = .reserved then k s else .refused .wrongTarget
    else .refused .misaligned

/-- The front of an engine step: no step is taken from a halted state (R35). -/
def engFront (s : State) (k : Out) : Out :=
  match s.halt with
  | some c => .fault (.halted c)
  | none => k

end Sys2Proof.Machine
end

