-- ==== Sys2Proof/Machine/Engine.lean ====
section
/-!
DEFINITION. The meanings of the ENGINE rows (spec/42_dma_block_transfer.md, spec/43_dma_linked_list.md), the selection of the next
engine row from the engine state (spec/30_encoding.md R132), and the two whole-transfer summaries R231 and R260.
-/

namespace Sys2Proof.Machine

/-- `ENG.BLOCK_START`, `StartBlock(p)` (R221). -/
def execEngBlockStart (p : Port) (s : State) : Out :=
  engFront s <|
    if s.eng = .idle then
      match transferSize (s.ch p) with
      | none => raise (.dmaSizeIndeterminate p) s
      | some n => .next (s.setEng (.block p (s.ch p).base n))
    else .refused .notSelected

/-- `ENG.BLOCK_GPU_WORD`: one word from RAM to the video port (R224, R229). -/
def execEngBlockGpuWord (s : State) : Out :=
  engFront s <|
    match s.eng with
    | .block p addr n =>
      if n ≠ 0#32 ∧ directionOf (s.ch p).control = .fromRam ∧ p = .gpu then
        .next ((s.emit (.gp0 (s.ramWord (windowAddr addr)))).setEng
          (.block p (addr + stepValue (s.ch p).control) (n - 1#32)))
      else .refused .notSelected
    | _ => .refused .notSelected

/-- `ENG.BLOCK_FROMRAM_FATAL`: from-RAM to a port other than the video port (R225). -/
def execEngBlockFromRamFatal (s : State) : Out :=
  engFront s <|
    match s.eng with
    | .block p _ n =>
      if n ≠ 0#32 ∧ directionOf (s.ch p).control = .fromRam ∧ p ≠ .gpu then
        raise (.dmaBlockDestPort p) s
      else .refused .notSelected
    | _ => .refused .notSelected

/-- `ENG.BLOCK_OTC_WORD`: one word of the ordering table written to RAM (R226, R228, R229). -/
def execEngBlockOtcWord (s : State) : Out :=
  engFront s <|
    match s.eng with
    | .block p addr n =>
      if n ≠ 0#32 ∧ directionOf (s.ch p).control = .toRam ∧ p = .otc then
        .next ((s.ramWrite (windowAddr addr) (.word (otcWord addr n))).setEng
          (.block p (addr + stepValue (s.ch p).control) (n - 1#32)))
      else .refused .notSelected
    | _ => .refused .notSelected

/-- `ENG.BLOCK_TORAM_FATAL`: to-RAM from a port other than OTC (R227). -/
def execEngBlockToRamFatal (s : State) : Out :=
  engFront s <|
    match s.eng with
    | .block p _ n =>
      if n ≠ 0#32 ∧ directionOf (s.ch p).control = .toRam ∧ p ≠ .otc then
        raise (.dmaBlockSourcePort p) s
      else .refused .notSelected
    | _ => .refused .notSelected

/-- `ENG.BLOCK_DONE`: completion (R230). -/
def execEngBlockDone (s : State) : Out :=
  engFront s <|
    match s.eng with
    | .block p _ n => if n = 0#32 then done p s else .refused .notSelected
    | _ => .refused .notSelected

/-- `ENG.LIST_START`, `StartList(p)`: the port, then the direction, then the cursor (R251, R252, R253). -/
def execEngListStart (p : Port) (s : State) : Out :=
  engFront s <|
    if s.eng = .idle then
      if p ≠ .gpu then raise (.dmaListPort p) s
      else if directionOf (s.ch p).control = .toRam then raise (.dmaListDirection p) s
      else .next (s.setEng (.listHeader (windowAddr (s.ch p).base)))
    else .refused .notSelected

/-- `ENG.LIST_HEADER`: read a packet header (R254). -/
def execEngListHeader (s : State) : Out :=
  engFront s <|
    match s.eng with
    | .listHeader cursor =>
      let header := s.ramWord cursor
      .next (s.setEng (.listPayload cursor (headerCount header) header))
    | _ => .refused .notSelected

/-- `ENG.LIST_WORD`: forward one payload word (R255). -/
def execEngListWord (s : State) : Out :=
  engFront s <|
    match s.eng with
    | .listPayload addr left header =>
      if left ≠ 0#8 then
        let addr' := windowAddr (addr + 4#32)
        .next ((s.emit (.gp0 (s.ramWord addr'))).setEng (.listPayload addr' (left - 1#8) header))
      else .refused .notSelected
    | _ => .refused .notSelected

/-- `ENG.LIST_NEXT`: go to the next node (R257). -/
def execEngListNext (s : State) : Out :=
  engFront s <|
    match s.eng with
    | .listPayload _ left header =>
      if left = 0#8 ∧ headerEnd header = false then .next (s.setEng (.listHeader (windowAddr header)))
      else .refused .notSelected
    | _ => .refused .notSelected

/-- `ENG.LIST_END`: completion (R259). -/
def execEngListEnd (s : State) : Out :=
  engFront s <|
    match s.eng with
    | .listPayload _ left header =>
      if left = 0#8 ∧ headerEnd header = true then done .gpu s
      else .refused .notSelected
    | _ => .refused .notSelected

/-- The engine row the engine state selects; none when the engine is idle (R132, and the operands of R224 to R230, R254 to R259). -/
def selectEngine (s : State) : Option Instr :=
  match s.eng with
  | .idle => none
  | .block p _ n =>
    if n = 0#32 then some .engBlockDone
    else
      match directionOf (s.ch p).control with
      | .fromRam => if p = .gpu then some .engBlockGpuWord else some .engBlockFromRamFatal
      | .toRam => if p = .otc then some .engBlockOtcWord else some .engBlockToRamFatal
  | .listHeader _ => some .engListHeader
  | .listPayload _ left header =>
    if left ≠ 0#8 then some .engListWord
    else if headerEnd header then some .engListEnd
    else some .engListNext

/-- `StartTransfer(p)` (R201). -/
def startTransfer (p : Port) (s : State) : Out :=
  match syncOf (s.ch p).control with
  | some .linkedList => execEngListStart p s
  | _ => execEngBlockStart p s

/-- `AfterChannelWrite(p)` (R200): the written channel runs if it is now active; else the store returns at once. -/
def afterChannelWrite (p : Port) (s : State) : Out :=
  if s.active p then startTransfer p s else stores s

/-- The loop of R231 from a running address, for a count: the summary form of block mode. Where it raises, the engine state is
left as it was found. -/
def blockLoop (p : Port) : Nat → Word → State → Out
  | 0, _, s => done p s
  | k + 1, addr, s =>
    match directionOf (s.ch p).control with
    | .fromRam =>
      if p = .gpu then
        blockLoop p k (addr + stepValue (s.ch p).control) (s.emit (.gp0 (s.ramWord (windowAddr addr))))
      else raise (.dmaBlockDestPort p) s
    | .toRam =>
      if p = .otc then
        blockLoop p k (addr + stepValue (s.ch p).control)
          (s.ramWrite (windowAddr addr) (.word (if k = 0 then Config.otcEndMarker else (addr - 4#32) &&& Config.otcPtrMask)))
      else raise (.dmaBlockSourcePort p) s

/-- `DoBlock(p)` (R231). -/
def doBlock (p : Port) (s : State) : Out :=
  match transferSize (s.ch p) with
  | none => raise (.dmaSizeIndeterminate p) s
  | some n => blockLoop p n.toNat (s.ch p).base s

/-- The words a packet forwards, from its header's address (the inner loop of R260). -/
def packetWords (s : State) : Nat → Word → List GpuEvent
  | 0, _ => []
  | k + 1, addr => .gp0 (s.ramWord (windowAddr (addr + 4#32))) :: packetWords s k (windowAddr (addr + 4#32))

/-- The words a linked-list walk forwards and whether it ends within a number of packets (the outer loop of R260). -/
def walk (s : State) : Nat → Word → Option (List GpuEvent)
  | 0, _ => none
  | k + 1, addr =>
    let header := s.ramWord addr
    let words := packetWords s (headerCount header).toNat addr
    if headerEnd header then some words
    else (walk s k (windowAddr header)).map (words ++ ·)

end Sys2Proof.Machine
end

