-- ==== Sys2Proof/Machine/DmaRegs.lean ====
section
/-!
DEFINITION. The meanings of the DMA_READ and DMA_WRITE rows, and the front of the DMA range, `DmaRead` and `DmaWrite`
(spec/41_dma_registers.md).
-/

namespace Sys2Proof.Machine

/-- `RD.BASE(p)` (R182). -/
def rdBase (p : Port) (s : State) : Out := regFront s fun s => loads (.word (s.ch p).base) s

/-- `RD.BLOCK(p)` (R183). -/
def rdBlock (p : Port) (s : State) : Out :=
  regFront s fun s => loads (.word (blockWord (s.ch p).blockSize (s.ch p).blockCount)) s

/-- `RD.CHCTL(p)` (R184). -/
def rdChctl (p : Port) (s : State) : Out := regFront s fun s => loads (.word (s.ch p).control) s

/-- `WR.BASE(p, val)` (R190). -/
def wrBase (p : Port) (val : Word) (s : State) : Out :=
  regFront s fun s => afterChannelWrite p (s.setBase p val)

/-- `WR.BLOCK(p, val)` (R191). -/
def wrBlock (p : Port) (val : Word) (s : State) : Out :=
  regFront s fun s => afterChannelWrite p (s.setBlock p val)

/-- `WR.CHCTL(p, val)`: sync mode 3 is fatal and leaves the register (R192, R196; log entry 15). -/
def wrChctl (p : Port) (val : Word) (s : State) : Out :=
  regFront s fun s =>
    if syncField val = 3#2 then raise (.dmaUnknownSyncMode p val) s
    else afterChannelWrite p (s.setControl p val)

/-- `RD.BASE(MdecIn)` (R182). -/
def execRdBaseMdecIn (s : State) : Out := rdBase .mdecIn s

/-- `RD.BLOCK(MdecIn)` (R183). -/
def execRdBlockMdecIn (s : State) : Out := rdBlock .mdecIn s

/-- `RD.CHCTL(MdecIn)` (R184). -/
def execRdChctlMdecIn (s : State) : Out := rdChctl .mdecIn s

/-- `RD.BASE(MdecOut)` (R182). -/
def execRdBaseMdecOut (s : State) : Out := rdBase .mdecOut s

/-- `RD.BLOCK(MdecOut)` (R183). -/
def execRdBlockMdecOut (s : State) : Out := rdBlock .mdecOut s

/-- `RD.CHCTL(MdecOut)` (R184). -/
def execRdChctlMdecOut (s : State) : Out := rdChctl .mdecOut s

/-- `RD.BASE(Gpu)` (R182). -/
def execRdBaseGpu (s : State) : Out := rdBase .gpu s

/-- `RD.BLOCK(Gpu)` (R183). -/
def execRdBlockGpu (s : State) : Out := rdBlock .gpu s

/-- `RD.CHCTL(Gpu)` (R184). -/
def execRdChctlGpu (s : State) : Out := rdChctl .gpu s

/-- `RD.BASE(CdRom)` (R182). -/
def execRdBaseCdRom (s : State) : Out := rdBase .cdRom s

/-- `RD.BLOCK(CdRom)` (R183). -/
def execRdBlockCdRom (s : State) : Out := rdBlock .cdRom s

/-- `RD.CHCTL(CdRom)` (R184). -/
def execRdChctlCdRom (s : State) : Out := rdChctl .cdRom s

/-- `RD.BASE(Spu)` (R182). -/
def execRdBaseSpu (s : State) : Out := rdBase .spu s

/-- `RD.BLOCK(Spu)` (R183). -/
def execRdBlockSpu (s : State) : Out := rdBlock .spu s

/-- `RD.CHCTL(Spu)` (R184). -/
def execRdChctlSpu (s : State) : Out := rdChctl .spu s

/-- `RD.BASE(Pio)` (R182). -/
def execRdBasePio (s : State) : Out := rdBase .pio s

/-- `RD.BLOCK(Pio)` (R183). -/
def execRdBlockPio (s : State) : Out := rdBlock .pio s

/-- `RD.CHCTL(Pio)` (R184). -/
def execRdChctlPio (s : State) : Out := rdChctl .pio s

/-- `RD.BASE(Otc)` (R182). -/
def execRdBaseOtc (s : State) : Out := rdBase .otc s

/-- `RD.BLOCK(Otc)` (R183). -/
def execRdBlockOtc (s : State) : Out := rdBlock .otc s

/-- `RD.CHCTL(Otc)` (R184). -/
def execRdChctlOtc (s : State) : Out := rdChctl .otc s

/-- `RD.DMACTL` (R185). -/
def execRdDmactl (s : State) : Out := regFront s fun s => loads (.word s.dma.control) s

/-- `RD.DMAIRQ` (R186). -/
def execRdDmairq (s : State) : Out := regFront s fun s => loads (.word s.dma.interrupt) s

/-- `RD.RESERVED` (R187). -/
def execRdReserved (off : BitVec 7) (s : State) : Out :=
  reservedFront off s fun s => raise (.dmaBadRegister .load off) s

/-- `WR.BASE(MdecIn, val)` (R190). -/
def execWrBaseMdecIn (val : Word) (s : State) : Out := wrBase .mdecIn val s

/-- `WR.BLOCK(MdecIn, val)` (R191). -/
def execWrBlockMdecIn (val : Word) (s : State) : Out := wrBlock .mdecIn val s

/-- `WR.CHCTL(MdecIn, val)` (R192). -/
def execWrChctlMdecIn (val : Word) (s : State) : Out := wrChctl .mdecIn val s

/-- `WR.BASE(MdecOut, val)` (R190). -/
def execWrBaseMdecOut (val : Word) (s : State) : Out := wrBase .mdecOut val s

/-- `WR.BLOCK(MdecOut, val)` (R191). -/
def execWrBlockMdecOut (val : Word) (s : State) : Out := wrBlock .mdecOut val s

/-- `WR.CHCTL(MdecOut, val)` (R192). -/
def execWrChctlMdecOut (val : Word) (s : State) : Out := wrChctl .mdecOut val s

/-- `WR.BASE(Gpu, val)` (R190). -/
def execWrBaseGpu (val : Word) (s : State) : Out := wrBase .gpu val s

/-- `WR.BLOCK(Gpu, val)` (R191). -/
def execWrBlockGpu (val : Word) (s : State) : Out := wrBlock .gpu val s

/-- `WR.CHCTL(Gpu, val)` (R192). -/
def execWrChctlGpu (val : Word) (s : State) : Out := wrChctl .gpu val s

/-- `WR.BASE(CdRom, val)` (R190). -/
def execWrBaseCdRom (val : Word) (s : State) : Out := wrBase .cdRom val s

/-- `WR.BLOCK(CdRom, val)` (R191). -/
def execWrBlockCdRom (val : Word) (s : State) : Out := wrBlock .cdRom val s

/-- `WR.CHCTL(CdRom, val)` (R192). -/
def execWrChctlCdRom (val : Word) (s : State) : Out := wrChctl .cdRom val s

/-- `WR.BASE(Spu, val)` (R190). -/
def execWrBaseSpu (val : Word) (s : State) : Out := wrBase .spu val s

/-- `WR.BLOCK(Spu, val)` (R191). -/
def execWrBlockSpu (val : Word) (s : State) : Out := wrBlock .spu val s

/-- `WR.CHCTL(Spu, val)` (R192). -/
def execWrChctlSpu (val : Word) (s : State) : Out := wrChctl .spu val s

/-- `WR.BASE(Pio, val)` (R190). -/
def execWrBasePio (val : Word) (s : State) : Out := wrBase .pio val s

/-- `WR.BLOCK(Pio, val)` (R191). -/
def execWrBlockPio (val : Word) (s : State) : Out := wrBlock .pio val s

/-- `WR.CHCTL(Pio, val)` (R192). -/
def execWrChctlPio (val : Word) (s : State) : Out := wrChctl .pio val s

/-- `WR.BASE(Otc, val)` (R190). -/
def execWrBaseOtc (val : Word) (s : State) : Out := wrBase .otc val s

/-- `WR.BLOCK(Otc, val)` (R191). -/
def execWrBlockOtc (val : Word) (s : State) : Out := wrBlock .otc val s

/-- `WR.CHCTL(Otc, val)` (R192). -/
def execWrChctlOtc (val : Word) (s : State) : Out := wrChctl .otc val s

/-- `WR.DMACTL(val)`: no channel is examined (R193, R202). -/
def execWrDmactl (val : Word) (s : State) : Out := regFront s fun s => stores (s.setDmaControl val)

/-- `WR.DMAIRQ(val)`: no channel is examined, no bit is forced (R194, R202). -/
def execWrDmairq (val : Word) (s : State) : Out := regFront s fun s => stores (s.setDmaInterrupt val)

/-- `WR.RESERVED` (R195). -/
def execWrReserved (off : BitVec 7) (_val : Word) (s : State) : Out :=
  reservedFront off s fun s => raise (.dmaBadRegister .store off) s

/-- The row a word read of a channel's register runs (R180). -/
def rdChannel : Port → ChannelReg → State → Out
  | .mdecIn, .base => execRdBaseMdecIn
  | .mdecIn, .block => execRdBlockMdecIn
  | .mdecIn, .chctl => execRdChctlMdecIn
  | .mdecOut, .base => execRdBaseMdecOut
  | .mdecOut, .block => execRdBlockMdecOut
  | .mdecOut, .chctl => execRdChctlMdecOut
  | .gpu, .base => execRdBaseGpu
  | .gpu, .block => execRdBlockGpu
  | .gpu, .chctl => execRdChctlGpu
  | .cdRom, .base => execRdBaseCdRom
  | .cdRom, .block => execRdBlockCdRom
  | .cdRom, .chctl => execRdChctlCdRom
  | .spu, .base => execRdBaseSpu
  | .spu, .block => execRdBlockSpu
  | .spu, .chctl => execRdChctlSpu
  | .pio, .base => execRdBasePio
  | .pio, .block => execRdBlockPio
  | .pio, .chctl => execRdChctlPio
  | .otc, .base => execRdBaseOtc
  | .otc, .block => execRdBlockOtc
  | .otc, .chctl => execRdChctlOtc

/-- The row a word write of a channel's register runs (R180). -/
def wrChannel : Port → ChannelReg → Word → State → Out
  | .mdecIn, .base => execWrBaseMdecIn
  | .mdecIn, .block => execWrBlockMdecIn
  | .mdecIn, .chctl => execWrChctlMdecIn
  | .mdecOut, .base => execWrBaseMdecOut
  | .mdecOut, .block => execWrBlockMdecOut
  | .mdecOut, .chctl => execWrChctlMdecOut
  | .gpu, .base => execWrBaseGpu
  | .gpu, .block => execWrBlockGpu
  | .gpu, .chctl => execWrChctlGpu
  | .cdRom, .base => execWrBaseCdRom
  | .cdRom, .block => execWrBlockCdRom
  | .cdRom, .chctl => execWrChctlCdRom
  | .spu, .base => execWrBaseSpu
  | .spu, .block => execWrBlockSpu
  | .spu, .chctl => execWrChctlSpu
  | .pio, .base => execWrBasePio
  | .pio, .block => execWrBlockPio
  | .pio, .chctl => execWrChctlPio
  | .otc, .base => execWrBaseOtc
  | .otc, .block => execWrBlockOtc
  | .otc, .chctl => execWrChctlOtc

/-- `DmaRead<T>(o)`: the width first, then the register (R180; log entry 22). -/
def dmaRead (T : Width) (o : BitVec 7) (s : State) : Out :=
  if T ≠ .word then raise (.dmaAccessWidth .load o T) s
  else
    match regSel o with
    | .channel p r => rdChannel p r s
    | .dmaCtl => execRdDmactl s
    | .dmaIrq => execRdDmairq s
    | .reserved => execRdReserved o s

/-- `DmaWrite<T>(o, val)`: the width first, then the register (R180; log entry 22). -/
def dmaWrite (o : BitVec 7) (v : Value) (s : State) : Out :=
  match v with
  | .word val =>
    match regSel o with
    | .channel p r => wrChannel p r val s
    | .dmaCtl => execWrDmactl val s
    | .dmaIrq => execWrDmairq val s
    | .reserved => execWrReserved o val s
  | .byte _ => raise (.dmaAccessWidth .store o .byte) s
  | .half _ => raise (.dmaAccessWidth .store o .half) s

end Sys2Proof.Machine
end

