-- ==== Sys2Proof/Machine/Loads.lean ====
section
/-!
DEFINITION. The meanings of the BUS_LOAD rows (spec/40_bus_load_store.md section 2).
-/

namespace Sys2Proof.Machine

/-- `LOAD.RAM` (R142). -/
def execLoadRam (T : Width) (addr : Word) (s : State) : Out :=
  busFront T addr .ram s fun o s => loads (s.ramRead o T) s

/-- `LOAD.BIOS` (R143). -/
def execLoadBios (T : Width) (addr : Word) (s : State) : Out :=
  busFront T addr .bios s fun o s => loads (s.biosRead o T) s

/-- `LOAD.IRQ`: the stub's 0 (R144). -/
def execLoadIrq (T : Width) (addr : Word) (s : State) : Out :=
  busFront T addr .irq s fun _ s => loads (fromU32 T 0#32) s

/-- `LOAD.DMA` (R145). -/
def execLoadDma (T : Width) (addr : Word) (s : State) : Out :=
  busFront T addr .dma s fun o s => dmaRead T (o.setWidth 7) s

/-- `LOAD.GPU` (R146). -/
def execLoadGpu (T : Width) (addr : Word) (s : State) : Out :=
  busFront T addr .gpu s fun o s => gpuLoad o T s

/-- `LOAD.TIMERS`: the stub's 0 (R147). -/
def execLoadTimers (T : Width) (addr : Word) (s : State) : Out :=
  busFront T addr .timers s fun _ s => loads (fromU32 T 0#32) s

/-- `LOAD.SPU`: the stub's 0 (R148). -/
def execLoadSpu (T : Width) (addr : Word) (s : State) : Out :=
  busFront T addr .spu s fun _ s => loads (fromU32 T 0#32) s

/-- `LOAD.EXP1`: the stub's all-ones (R149). -/
def execLoadExp1 (T : Width) (addr : Word) (s : State) : Out :=
  busFront T addr .exp1 s fun _ s => loads (fromU32 T 0xffffffff#32) s

/-- `LOAD.UNMAPPED` (R150). -/
def execLoadUnmapped (T : Width) (addr : Word) (s : State) : Out :=
  unmappedFront T addr (loadTarget addr) s fun s => raise (.unmappedLoad addr (maskRegion addr) T) s

end Sys2Proof.Machine
end

