-- ==== Sys2Proof/Machine/Stores.lean ====
section
/-!
DEFINITION. The meanings of the BUS_STORE rows (spec/40_bus_load_store.md section 3).
-/

namespace Sys2Proof.Machine

/-- `STORE.RAM` (R152). -/
def execStoreRam (addr : Word) (v : Value) (s : State) : Out :=
  busFront v.width addr .ram s fun o s => stores (s.ramWrite o v)

/-- `STORE.IRQ`: dropped (R153). -/
def execStoreIrq (addr : Word) (v : Value) (s : State) : Out :=
  busFront v.width addr .irq s fun _ s => stores s

/-- `STORE.DMA` (R154). -/
def execStoreDma (addr : Word) (v : Value) (s : State) : Out :=
  busFront v.width addr .dma s fun o s => dmaWrite (o.setWidth 7) v s

/-- `STORE.GPU` (R155). -/
def execStoreGpu (addr : Word) (v : Value) (s : State) : Out :=
  busFront v.width addr .gpu s fun o s => stores (s.emit (.gpuStore o v))

/-- `STORE.TIMERS`: dropped (R156). -/
def execStoreTimers (addr : Word) (v : Value) (s : State) : Out :=
  busFront v.width addr .timers s fun _ s => stores s

/-- `STORE.SPU`: dropped (R157). -/
def execStoreSpu (addr : Word) (v : Value) (s : State) : Out :=
  busFront v.width addr .spu s fun _ s => stores s

/-- `STORE.CACHECTL`: word only (R158). -/
def execStoreCacheCtl (addr : Word) (v : Value) (s : State) : Out :=
  busFront v.width addr .cacheCtl s fun _ s =>
    match v with
    | .word val => stores (s.setCacheControl val)
    | .byte _ => raise (.cacheControlWidth addr .byte) s
    | .half _ => raise (.cacheControlWidth addr .half) s

/-- `STORE.MEMCTL`: offsets 0 and 4 are compared, nothing is stored (R119, R159; log entry 24). -/
def execStoreMemCtl (addr : Word) (v : Value) (s : State) : Out :=
  busFront v.width addr .memCtl s fun o s =>
    if o = 0#32 ∧ asU32 v ≠ 0x1f000000#32 then raise (.expansionBaseMismatch addr o (asU32 v)) s
    else if o = 4#32 ∧ asU32 v ≠ 0x1f802000#32 then raise (.expansionBaseMismatch addr o (asU32 v)) s
    else stores s

/-- `STORE.RAMSIZE`: ignored (R160). -/
def execStoreRamSize (addr : Word) (v : Value) (s : State) : Out :=
  busFront v.width addr .ramSize s fun _ s => stores s

/-- `STORE.EXP2`: dropped (R161). -/
def execStoreExp2 (addr : Word) (v : Value) (s : State) : Out :=
  busFront v.width addr .exp2 s fun _ s => stores s

/-- `STORE.UNMAPPED` (R162). -/
def execStoreUnmapped (addr : Word) (v : Value) (s : State) : Out :=
  unmappedFront v.width addr (storeTarget addr) s fun s =>
    raise (.unmappedStore addr (maskRegion addr) v) s

end Sys2Proof.Machine
end

