-- ==== Sys2Proof/Machine/Dispatch.lean ====
section
/-!
DEFINITION. The dispatch: one arm per constructor of `Instr`, each a direct call of its meaning.
-/

namespace Sys2Proof.Machine

def exec (i : Instr) (s : State) : Host.Outcome State Fault Refusal :=
  match i with
  | .loadRam T addr => Sys2Proof.Machine.execLoadRam T addr s
  | .loadBios T addr => Sys2Proof.Machine.execLoadBios T addr s
  | .loadIrq T addr => Sys2Proof.Machine.execLoadIrq T addr s
  | .loadDma T addr => Sys2Proof.Machine.execLoadDma T addr s
  | .loadGpu T addr => Sys2Proof.Machine.execLoadGpu T addr s
  | .loadTimers T addr => Sys2Proof.Machine.execLoadTimers T addr s
  | .loadSpu T addr => Sys2Proof.Machine.execLoadSpu T addr s
  | .loadExp1 T addr => Sys2Proof.Machine.execLoadExp1 T addr s
  | .loadUnmapped T addr => Sys2Proof.Machine.execLoadUnmapped T addr s
  | .storeRam addr v => Sys2Proof.Machine.execStoreRam addr v s
  | .storeIrq addr v => Sys2Proof.Machine.execStoreIrq addr v s
  | .storeDma addr v => Sys2Proof.Machine.execStoreDma addr v s
  | .storeGpu addr v => Sys2Proof.Machine.execStoreGpu addr v s
  | .storeTimers addr v => Sys2Proof.Machine.execStoreTimers addr v s
  | .storeSpu addr v => Sys2Proof.Machine.execStoreSpu addr v s
  | .storeCacheCtl addr v => Sys2Proof.Machine.execStoreCacheCtl addr v s
  | .storeMemCtl addr v => Sys2Proof.Machine.execStoreMemCtl addr v s
  | .storeRamSize addr v => Sys2Proof.Machine.execStoreRamSize addr v s
  | .storeExp2 addr v => Sys2Proof.Machine.execStoreExp2 addr v s
  | .storeUnmapped addr v => Sys2Proof.Machine.execStoreUnmapped addr v s
  | .rdBaseMdecIn => Sys2Proof.Machine.execRdBaseMdecIn s
  | .rdBlockMdecIn => Sys2Proof.Machine.execRdBlockMdecIn s
  | .rdChctlMdecIn => Sys2Proof.Machine.execRdChctlMdecIn s
  | .rdBaseMdecOut => Sys2Proof.Machine.execRdBaseMdecOut s
  | .rdBlockMdecOut => Sys2Proof.Machine.execRdBlockMdecOut s
  | .rdChctlMdecOut => Sys2Proof.Machine.execRdChctlMdecOut s
  | .rdBaseGpu => Sys2Proof.Machine.execRdBaseGpu s
  | .rdBlockGpu => Sys2Proof.Machine.execRdBlockGpu s
  | .rdChctlGpu => Sys2Proof.Machine.execRdChctlGpu s
  | .rdBaseCdRom => Sys2Proof.Machine.execRdBaseCdRom s
  | .rdBlockCdRom => Sys2Proof.Machine.execRdBlockCdRom s
  | .rdChctlCdRom => Sys2Proof.Machine.execRdChctlCdRom s
  | .rdBaseSpu => Sys2Proof.Machine.execRdBaseSpu s
  | .rdBlockSpu => Sys2Proof.Machine.execRdBlockSpu s
  | .rdChctlSpu => Sys2Proof.Machine.execRdChctlSpu s
  | .rdBasePio => Sys2Proof.Machine.execRdBasePio s
  | .rdBlockPio => Sys2Proof.Machine.execRdBlockPio s
  | .rdChctlPio => Sys2Proof.Machine.execRdChctlPio s
  | .rdBaseOtc => Sys2Proof.Machine.execRdBaseOtc s
  | .rdBlockOtc => Sys2Proof.Machine.execRdBlockOtc s
  | .rdChctlOtc => Sys2Proof.Machine.execRdChctlOtc s
  | .rdDmactl => Sys2Proof.Machine.execRdDmactl s
  | .rdDmairq => Sys2Proof.Machine.execRdDmairq s
  | .rdReserved off => Sys2Proof.Machine.execRdReserved off s
  | .wrBaseMdecIn val => Sys2Proof.Machine.execWrBaseMdecIn val s
  | .wrBlockMdecIn val => Sys2Proof.Machine.execWrBlockMdecIn val s
  | .wrChctlMdecIn val => Sys2Proof.Machine.execWrChctlMdecIn val s
  | .wrBaseMdecOut val => Sys2Proof.Machine.execWrBaseMdecOut val s
  | .wrBlockMdecOut val => Sys2Proof.Machine.execWrBlockMdecOut val s
  | .wrChctlMdecOut val => Sys2Proof.Machine.execWrChctlMdecOut val s
  | .wrBaseGpu val => Sys2Proof.Machine.execWrBaseGpu val s
  | .wrBlockGpu val => Sys2Proof.Machine.execWrBlockGpu val s
  | .wrChctlGpu val => Sys2Proof.Machine.execWrChctlGpu val s
  | .wrBaseCdRom val => Sys2Proof.Machine.execWrBaseCdRom val s
  | .wrBlockCdRom val => Sys2Proof.Machine.execWrBlockCdRom val s
  | .wrChctlCdRom val => Sys2Proof.Machine.execWrChctlCdRom val s
  | .wrBaseSpu val => Sys2Proof.Machine.execWrBaseSpu val s
  | .wrBlockSpu val => Sys2Proof.Machine.execWrBlockSpu val s
  | .wrChctlSpu val => Sys2Proof.Machine.execWrChctlSpu val s
  | .wrBasePio val => Sys2Proof.Machine.execWrBasePio val s
  | .wrBlockPio val => Sys2Proof.Machine.execWrBlockPio val s
  | .wrChctlPio val => Sys2Proof.Machine.execWrChctlPio val s
  | .wrBaseOtc val => Sys2Proof.Machine.execWrBaseOtc val s
  | .wrBlockOtc val => Sys2Proof.Machine.execWrBlockOtc val s
  | .wrChctlOtc val => Sys2Proof.Machine.execWrChctlOtc val s
  | .wrDmactl val => Sys2Proof.Machine.execWrDmactl val s
  | .wrDmairq val => Sys2Proof.Machine.execWrDmairq val s
  | .wrReserved off val => Sys2Proof.Machine.execWrReserved off val s
  | .engBlockStart p => Sys2Proof.Machine.execEngBlockStart p s
  | .engBlockGpuWord => Sys2Proof.Machine.execEngBlockGpuWord s
  | .engBlockFromRamFatal => Sys2Proof.Machine.execEngBlockFromRamFatal s
  | .engBlockOtcWord => Sys2Proof.Machine.execEngBlockOtcWord s
  | .engBlockToRamFatal => Sys2Proof.Machine.execEngBlockToRamFatal s
  | .engBlockDone => Sys2Proof.Machine.execEngBlockDone s
  | .engListStart p => Sys2Proof.Machine.execEngListStart p s
  | .engListHeader => Sys2Proof.Machine.execEngListHeader s
  | .engListWord => Sys2Proof.Machine.execEngListWord s
  | .engListNext => Sys2Proof.Machine.execEngListNext s
  | .engListEnd => Sys2Proof.Machine.execEngListEnd s

end Sys2Proof.Machine
end

