-- ==== Sys2Proof/Machine/Fetch.lean ====
section
/-!
DEFINITION. Where the next operation comes from: the engine while it runs, else the queue of the CPU's requests
(spec/00_scope.md R6, spec/10_state.md R34).
-/

namespace Sys2Proof.Machine

/-- What the next step runs. -/
inductive Fetched where
  /-- An instruction, and the state it runs in. -/
  | run (i : Instr) (s : State)
  /-- A request the decoder rejects. -/
  | rejected (e : DecodeError)
  /-- Nothing: the engine is idle and the CPU issues no operation. -/
  | nothing
  deriving DecidableEq, Repr

/-- The next request leaves the queue and is decoded. -/
def fetchRequest (s : State) : Fetched :=
  match s.requests with
  | [] => .nothing
  | r :: rs =>
    match decode r with
    | .ok i => .run i { s with requests := rs }
    | .error e => .rejected e

/-- The engine's row while the engine runs, "and the CPU does not step in that interval" (R6); else the CPU's next operation. -/
def fetch (s : State) : Fetched :=
  match selectEngine s with
  | some i => .run i s
  | none => fetchRequest s

/-- The refusal a rejected request ends in (R71, R304 (a)). -/
def rejection : DecodeError → Refusal
  | .misaligned => .misaligned

/-- The state in which a table word's request is the very next operation: it heads the queue, the engine is idle, and the halt
latch is clear, which is what accepting an operation takes (R34, R35; log entry 25). -/
def State.placeRequest (s : State) (r : Request) : State :=
  { s with requests := r :: s.requests, eng := .idle, halt := none }

end Sys2Proof.Machine
end

