-- ==== Sys2Proof/Machine/Step.lean ====
section
/-!
DEFINITION. One step of the block.
-/

namespace Sys2Proof.Machine

/-- One step: none from a halted state (R35, R300); else the engine's row, or the CPU's next operation; with neither, the block
waits as it is (log entry 4). -/
def step (s : State) : Host.Outcome State Fault Refusal :=
  match s.halt with
  | some c => .fault (.halted c)
  | none =>
    match fetch s with
    | .run i s' => exec i s'
    | .rejected e => .refused (rejection e)
    | .nothing => .next s

/-- The state in which the next step runs the instruction of a word of spec/opcode_table.json (log entries 19, 25). -/
def State.withFetchWord (s : State) (nbits w : Nat) : State := s.placeRequest (tableRequest nbits w)

end Sys2Proof.Machine
end

