-- ==== Sys2Proof/WellFormed.lean ====
section
/-!
DEFINITION. Well-formed instructions: the operands a row of spec/opcode_table.json admits. Every instruction the decoder gives is
well formed; the engine rows take any port.
-/

namespace Sys2Proof

/-- A load row is well formed when its address is aligned and a load there goes to the row's target (R66, R71). -/
def wfLoad (T : Width) (addr : Word) (t : Option Target) : Bool := aligned T addr && loadTarget addr == t

/-- A store row is well formed when its address is aligned and a store there goes to the row's target (R67, R71). -/
def wfStore (addr : Word) (v : Value) (t : Option Target) : Bool := aligned v.width addr && storeTarget addr == t

/-- A reserved offset: aligned, and selecting no register (R110, R187, R195). -/
def wfReserved (off : BitVec 7) : Bool := alignedOffset off && regSel off == .reserved

/-- The operand check of each row. -/
def Instr.wf : Instr → Bool
  | .loadRam T addr => wfLoad T addr (some .ram)
  | .loadBios T addr => wfLoad T addr (some .bios)
  | .loadIrq T addr => wfLoad T addr (some .irq)
  | .loadDma T addr => wfLoad T addr (some .dma)
  | .loadGpu T addr => wfLoad T addr (some .gpu)
  | .loadTimers T addr => wfLoad T addr (some .timers)
  | .loadSpu T addr => wfLoad T addr (some .spu)
  | .loadExp1 T addr => wfLoad T addr (some .exp1)
  | .loadUnmapped T addr => wfLoad T addr none
  | .storeRam addr v => wfStore addr v (some .ram)
  | .storeIrq addr v => wfStore addr v (some .irq)
  | .storeDma addr v => wfStore addr v (some .dma)
  | .storeGpu addr v => wfStore addr v (some .gpu)
  | .storeTimers addr v => wfStore addr v (some .timers)
  | .storeSpu addr v => wfStore addr v (some .spu)
  | .storeCacheCtl addr v => wfStore addr v (some .cacheCtl)
  | .storeMemCtl addr v => wfStore addr v (some .memCtl)
  | .storeRamSize addr v => wfStore addr v (some .ramSize)
  | .storeExp2 addr v => wfStore addr v (some .exp2)
  | .storeUnmapped addr v => wfStore addr v none
  | .rdBaseMdecIn => true
  | .rdBlockMdecIn => true
  | .rdChctlMdecIn => true
  | .rdBaseMdecOut => true
  | .rdBlockMdecOut => true
  | .rdChctlMdecOut => true
  | .rdBaseGpu => true
  | .rdBlockGpu => true
  | .rdChctlGpu => true
  | .rdBaseCdRom => true
  | .rdBlockCdRom => true
  | .rdChctlCdRom => true
  | .rdBaseSpu => true
  | .rdBlockSpu => true
  | .rdChctlSpu => true
  | .rdBasePio => true
  | .rdBlockPio => true
  | .rdChctlPio => true
  | .rdBaseOtc => true
  | .rdBlockOtc => true
  | .rdChctlOtc => true
  | .rdDmactl => true
  | .rdDmairq => true
  | .rdReserved off => wfReserved off
  | .wrBaseMdecIn _ => true
  | .wrBlockMdecIn _ => true
  | .wrChctlMdecIn _ => true
  | .wrBaseMdecOut _ => true
  | .wrBlockMdecOut _ => true
  | .wrChctlMdecOut _ => true
  | .wrBaseGpu _ => true
  | .wrBlockGpu _ => true
  | .wrChctlGpu _ => true
  | .wrBaseCdRom _ => true
  | .wrBlockCdRom _ => true
  | .wrChctlCdRom _ => true
  | .wrBaseSpu _ => true
  | .wrBlockSpu _ => true
  | .wrChctlSpu _ => true
  | .wrBasePio _ => true
  | .wrBlockPio _ => true
  | .wrChctlPio _ => true
  | .wrBaseOtc _ => true
  | .wrBlockOtc _ => true
  | .wrChctlOtc _ => true
  | .wrDmactl _ => true
  | .wrDmairq _ => true
  | .wrReserved off _ => wfReserved off
  | .engBlockStart _ => true
  | .engBlockGpuWord => true
  | .engBlockFromRamFatal => true
  | .engBlockOtcWord => true
  | .engBlockToRamFatal => true
  | .engBlockDone => true
  | .engListStart _ => true
  | .engListHeader => true
  | .engListWord => true
  | .engListNext => true
  | .engListEnd => true

end Sys2Proof
end

