-- ==== Sys2Proof/Safety.lean ====
section
/-!
DEFINITION. What claims are stated in: runs of the block, when a run is successful, and the invariants of the block.
-/

namespace Sys2Proof.Machine

/-- `k` steps, ending at the first fault or refusal. -/
def run : Nat → State → Out
  | 0, s => .next s
  | k + 1, s =>
    match step s with
    | .next t => run k t
    | .fault f => .fault f
    | .refused r => .refused r

/-- The block has not halted: no claim takes a halted state as a success (R300). -/
def State.running (s : State) : Prop := s.halt = none

/-- An operation of the CPU is accepted: not halted, and the engine idle (R34, R35). -/
def State.ready (s : State) : Prop := s.halt = none ∧ s.eng = .idle

/-- The masked address lies in `[base, base + length)` (R63, R64). -/
def maskedIn (base length : Nat) (addr : Word) : Prop :=
  base ≤ (maskRegion addr).toNat ∧ (maskRegion addr).toNat < base + length

/-- The address lies in one of the eleven unmapped gaps of R77. -/
def inGap (a : Nat) : Prop :=
  (0x00200000 ≤ a ∧ a < 0x1f000000) ∨ (0x1f080000 ≤ a ∧ a < 0x1f801000) ∨ (0x1f801024 ≤ a ∧ a < 0x1f801060) ∨
    (0x1f801064 ≤ a ∧ a < 0x1f801070) ∨ (0x1f801078 ≤ a ∧ a < 0x1f801080) ∨ (0x1f801130 ≤ a ∧ a < 0x1f801810) ∨
    (0x1f801818 ≤ a ∧ a < 0x1f801c00) ∨ (0x1f801e80 ≤ a ∧ a < 0x1f802000) ∨ (0x1f802042 ≤ a ∧ a < 0x1fc00000) ∨
    (0x1fc80000 ≤ a ∧ a < 0xfffe0130) ∨ (0xfffe0134 ≤ a ∧ a ≤ 0xffffffff)

/-- The channel the engine runs for: the port of block mode, the video port in linked-list mode (R34, R253). -/
def Engine.port? : Engine → Option Port
  | .idle => none
  | .block p _ _ => some p
  | .listHeader _ => some .gpu
  | .listPayload _ _ _ => some .gpu

/-- Both byte arrays are in canonical form, within their sizes (R21, R22). -/
def MemoryInv (s : State) : Prop :=
  Memory.wf s.ram Config.ramSize = true ∧ Memory.wf s.bios Config.biosSize = true

/-- No stored control word has a sync field of 3: every one decodes to a mode (R27, R196). -/
def SyncInv (s : State) : Prop := ∀ p : Port, syncField (s.ch p).control ≠ 3#2

/-- Whenever the engine is idle and the block is not halted, no channel is active (R39). -/
def QuietInv (s : State) : Prop := s.ready → ∀ p : Port, s.active p = false

/-- The addresses the engine holds in linked-list mode are reduced to the RAM window (R34). -/
def WindowInv (s : State) : Prop :=
  match s.eng with
  | .listHeader cursor => windowAddr cursor = cursor
  | .listPayload addr _ _ => windowAddr addr = addr
  | _ => True

/-- While the engine runs, the channel it runs for is active in the mode it runs, and no other is active (R203, R206). -/
def TransferInv (s : State) : Prop :=
  match s.eng with
  | .idle => True
  | .block p _ _ =>
    (syncOf (s.ch p).control = some .manual ∨ syncOf (s.ch p).control = some .request) ∧
      ∀ q : Port, s.active q = true ↔ q = p
  | .listHeader _ | .listPayload _ _ _ =>
    syncOf (s.ch .gpu).control = some .linkedList ∧ directionOf (s.ch .gpu).control = .fromRam ∧
      ∀ q : Port, s.active q = true ↔ q = .gpu

/-- The block hands nothing back while the engine runs: the triggering store has not returned (R200). -/
def ReplyInv (s : State) : Prop := s.eng ≠ .idle → s.reply = none

end Sys2Proof.Machine
end

