-- ==== Sys2Proof/Certificates/Slice0/Obligations.lean ====
section
/-!
DEFINITION. The statements for the provers.
-/

section

open Sys2Proof Sys2Proof.Machine

/-- Masking an address ands it with the mask of its region (R61). -/
def Obligations.MaskRegionUsesTheTable : Prop :=
  ∀ a : Word,
    (a.toNat < 0x80000000 → maskRegion a = a &&& 0xffffffff#32) ∧
    (0x80000000 ≤ a.toNat ∧ a.toNat < 0xa0000000 → maskRegion a = a &&& 0x7fffffff#32) ∧
    (0xa0000000 ≤ a.toNat ∧ a.toNat < 0xc0000000 → maskRegion a = a &&& 0x1fffffff#32) ∧
    (0xc0000000 ≤ a.toNat → maskRegion a = a &&& 0xffffffff#32)

/-- Masking is idempotent and folds the three mirrors of RAM (20_memory.md R62 (a) to (d), 20_memory.md R77). -/
def Obligations.MaskRegionFoldsTheMirrors : Prop :=
  ∀ a : Word,
    maskRegion (maskRegion a) = maskRegion a ∧
    (a.toNat < 0x00200000 → maskRegion a = a) ∧
    (0x80000000 ≤ a.toNat ∧ a.toNat < 0x80200000 → maskRegion a = a - 0x80000000#32) ∧
    (0xa0000000 ≤ a.toNat ∧ a.toNat < 0xa0200000 → maskRegion a = a - 0xa0000000#32) ∧
    ((maskRegion a).toNat < 0x80000000 ∨ 0xc0000000 ≤ (maskRegion a).toNat)

/-- A range lookup answers the zero-based offset inside the range and nothing outside (R64). -/
def Obligations.RangeLookupGivesTheOffset : Prop :=
  ∀ (t : Target) (a : Word),
    (∀ o : Word, t.range.contains a = some o ↔
      t.range.base.toNat ≤ a.toNat ∧ a.toNat < t.range.base.toNat + t.range.length.toNat ∧
        o.toNat = a.toNat - t.range.base.toNat) ∧
    (t.range.contains a = none ↔
      a.toNat < t.range.base.toNat ∨ t.range.base.toNat + t.range.length.toNat ≤ a.toNat)

/-- No address lies in two ranges, so the order of lookup is irrelevant (20_memory.md R65, 20_memory.md R68). -/
def Obligations.RangesArePairwiseDisjoint : Prop :=
  (∀ (t u : Target) (a : Word), t ≠ u → t.range.contains a = none ∨ u.range.contains a = none) ∧
  ∀ (ts : List Target) (t : Target) (a : Word),
    lookup ts a = some t ↔ t ∈ ts ∧ t.range.contains a ≠ none

/-- Everything outside the twelve ranges is unmapped and fatal; the gaps are the eleven listed (20_memory.md R77). R77 is
derived by the spec from R61 and R63. -/
def Obligations.UnmappedGapsAreExactlyTheEleven : Prop :=
  (∀ a : Word, (∀ t : Target, t.range.contains a = none) ↔ inGap a.toNat) ∧
  (∀ a : Word, (maskRegion a).toNat < 0x80000000 ∨ 0xc0000000 ≤ (maskRegion a).toNat) ∧
  (∀ (T : Width) (addr : Word) (s : State), s.ready → aligned T addr = true → inGap (maskRegion addr).toNat →
    exec (.loadUnmapped T addr) s =
      .next { s with halt := some (.unmappedLoad addr (maskRegion addr) T), reply := none }) ∧
  (∀ (addr : Word) (v : Value) (s : State), s.ready → aligned v.width addr = true → inGap (maskRegion addr).toNat →
    exec (.storeUnmapped addr v) s =
      .next { s with halt := some (.unmappedStore addr (maskRegion addr) v), reply := none }) ∧
  loadTarget 0x00200000#32 = none ∧ storeTarget 0x00200000#32 = none

/-- Narrowing and widening round trip (R10). -/
def Obligations.NarrowingAndWideningRoundTrip : Prop :=
  (∀ x : Value, fromU32 x.width (asU32 x) = x) ∧
  ∀ (T : Width) (v : Word), asU32 (fromU32 T v) = v &&& widthMask T

/-- RAM and BIOS are little-endian byte arrays (the spec's presumption, log entry 13) (20_memory.md R70, log entry 13 (byte
order presumed)). -/
def Obligations.MemoryIsLittleEndian : Prop :=
  (∀ (space : Nat → Byte) (off : Nat) (T : Width),
    (asU32 (memRead space off T)).toNat =
      ((List.range T.bytes).map fun i => (space (off + i)).toNat * 2 ^ (8 * i)).sum) ∧
  (∀ (s : State) (off : Word) (T : Width), s.ramRead off T = memRead s.ramByte off.toNat T) ∧
  (∀ (s : State) (off : Word) (T : Width), s.biosRead off T = memRead s.biosByte off.toNat T) ∧
  ∀ (s : State) (off : Word) (v : Value),
    (∀ i, i < v.width.bytes → (s.ramWrite off v).ramByte (off.toNat + i) = (asU32 v).extractLsb' (8 * i) 8) ∧
    ∀ y, (y < off.toNat ∨ off.toNat + v.width.bytes ≤ y) → (s.ramWrite off v).ramByte y = s.ramByte y

/-- Narrow loads see the bytes a wider store left, and the reverse (20_memory.md R86, log entry 13 (the byte order,
presumed)). -/
def Obligations.MixedWidthsSeeTheSameBytes : Prop :=
  (∀ (a : Word) (s : State), s.ready → aligned .word a = true → maskedIn 0 0x200000 a →
    ∃ t, exec (.storeRam a (.word 0x44332211#32)) s = .next t ∧
      exec (.loadRam .byte a) t = .next { t with reply := some (.loaded (.byte 0x11#8)) } ∧
      exec (.loadRam .byte (a + 1#32)) t = .next { t with reply := some (.loaded (.byte 0x22#8)) } ∧
      exec (.loadRam .half a) t = .next { t with reply := some (.loaded (.half 0x2211#16)) } ∧
      exec (.loadRam .half (a + 2#32)) t = .next { t with reply := some (.loaded (.half 0x4433#16)) } ∧
      t.ramWord (maskRegion a) = 0x44332211#32) ∧
  ∀ (a : Word) (b0 b1 b2 b3 : Byte) (s : State), s.ready → aligned .word a = true → maskedIn 0 0x200000 a →
    ∃ t0 t1 t2 t3, exec (.storeRam a (.byte b0)) s = .next t0 ∧ exec (.storeRam (a + 1#32) (.byte b1)) t0 = .next t1 ∧
      exec (.storeRam (a + 2#32) (.byte b2)) t1 = .next t2 ∧ exec (.storeRam (a + 3#32) (.byte b3)) t2 = .next t3 ∧
      exec (.loadRam .word a) t3 = .next { t3 with reply := some (.loaded (.word (b3 ++ b2 ++ b1 ++ b0))) }

/-- LOAD.RAM and LOAD.BIOS complete with the bytes at the offset and change nothing (R142, R143). -/
def Obligations.MemoryLoadsReturnTheBytes : Prop :=
  ∀ (T : Width) (addr : Word) (s : State), s.ready → aligned T addr = true →
    (maskedIn 0 0x200000 addr →
      exec (.loadRam T addr) s =
        .next { s with reply := some (.loaded (memRead s.ramByte (maskRegion addr).toNat T)) }) ∧
    (maskedIn 0x1fc00000 0x80000 addr →
      exec (.loadBios T addr) s =
        .next { s with reply := some (.loaded (memRead s.biosByte ((maskRegion addr).toNat - 0x1fc00000) T)) })

/-- The stub loads complete with 0, or all-ones for expansion 1 (40_bus_load_store.md R144, R147, R148, R149, log entry 34).
The narrow all-ones replies are decision D21, log entry 34 (DEDUCED). -/
def Obligations.StubLoadsAnswerTheirConstant : Prop :=
  ∀ (T : Width) (addr : Word) (s : State), s.ready → aligned T addr = true →
    (maskedIn 0x1f801070 8 addr →
      exec (.loadIrq T addr) s = .next { s with reply := some (.loaded (fromU32 T 0#32)) }) ∧
    (maskedIn 0x1f801100 48 addr →
      exec (.loadTimers T addr) s = .next { s with reply := some (.loaded (fromU32 T 0#32)) }) ∧
    (maskedIn 0x1f801c00 640 addr →
      exec (.loadSpu T addr) s = .next { s with reply := some (.loaded (fromU32 T 0#32)) }) ∧
    (maskedIn 0x1f000000 0x80000 addr →
      exec (.loadExp1 T addr) s = .next { s with reply := some (.loaded (fromU32 T 0xffffffff#32)) })

/-- LOAD.GPU completes: one GpuLoad event and some value of the width (40_bus_load_store.md R146, 10_state.md R40, log entry
10). The free value and its counter are the model's choice, log entry 10 (DESIGN CHOICE). -/
def Obligations.LoadGpuRecordsTheCallAndAnswersAnyValue : Prop :=
  ∀ (T : Width) (addr : Word) (s : State), s.ready → aligned T addr = true → maskedIn 0x1f801810 8 addr →
    ∃ v : Value, v.width = T ∧
      exec (.loadGpu T addr) s =
        .next { s with
          gpuTrace := s.gpuTrace ++ [.gpuLoad (maskRegion addr - 0x1f801810#32) T]
          gpuFree := s.gpuFree + 1
          reply := some (.loaded v) }

/-- LOAD.UNMAPPED latches F1 and changes nothing else (R150, R281). -/
def Obligations.LoadUnmappedHaltsWithF1 : Prop :=
  ∀ (T : Width) (addr : Word) (s : State), s.ready → aligned T addr = true →
    ¬ maskedIn 0 0x200000 addr → ¬ maskedIn 0x1fc00000 0x80000 addr → ¬ maskedIn 0x1f801070 8 addr →
    ¬ maskedIn 0x1f801080 128 addr → ¬ maskedIn 0x1f801810 8 addr → ¬ maskedIn 0x1f801100 48 addr →
    ¬ maskedIn 0x1f801c00 640 addr → ¬ maskedIn 0x1f000000 0x80000 addr →
    exec (.loadUnmapped T addr) s =
      .next { s with halt := some (.unmappedLoad addr (maskRegion addr) T), reply := none }

/-- LOAD.DMA runs the register's read; a narrow load latches F4 (40_bus_load_store.md R145, R154, 41_dma_registers.md R180,
60_exceptions.md R284, R297, log entry 22). That a narrow access at a reserved offset latches F4 and not F5 is decision D15,
log entry 22 (DEDUCED). -/
def Obligations.LoadDmaRunsTheRegisterRead : Prop :=
  (∀ (T : Width) (addr : Word) (s : State), s.ready → aligned T addr = true → maskedIn 0x1f801080 128 addr →
    (T = .word →
      exec (.loadDma T addr) s = exec (rdInstr ((maskRegion addr - 0x1f801080#32).setWidth 7)) s ∧
      (regSel ((maskRegion addr - 0x1f801080#32).setWidth 7) ≠ .reserved →
        ∃ w, exec (.loadDma T addr) s = .next { s with reply := some (.loaded (.word w)) })) ∧
    (T ≠ .word →
      exec (.loadDma T addr) s =
        .next { s with
          halt := some (.dmaAccessWidth .load ((maskRegion addr - 0x1f801080#32).setWidth 7) T), reply := none })) ∧
  ∀ (addr : Word) (v : Value) (s : State), s.ready → aligned v.width addr = true → maskedIn 0x1f801080 128 addr →
    v.width ≠ .word →
    exec (.storeDma addr v) s =
      .next { s with
        halt := some (.dmaAccessWidth .store ((maskRegion addr - 0x1f801080#32).setWidth 7) v.width), reply := none }

/-- STORE.RAM completes and changes exactly the bytes of its width (R152). -/
def Obligations.StoreRamChangesExactlyItsBytes : Prop :=
  ∀ (addr : Word) (v : Value) (s : State), s.ready → aligned v.width addr = true → maskedIn 0 0x200000 addr →
    ∃ t, exec (.storeRam addr v) s = .next t ∧ t = { s with ram := t.ram, reply := some .stored } ∧
      t.ramRead (maskRegion addr) v.width = v ∧
      ∀ y, (y < (maskRegion addr).toNat ∨ (maskRegion addr).toNat + v.width.bytes ≤ y) → t.ramByte y = s.ramByte y

/-- Stores to the stubs complete and change nothing (R153, R156, R157, R160, R161). -/
def Obligations.StubStoresAreDropped : Prop :=
  ∀ (addr : Word) (v : Value) (s : State), s.ready → aligned v.width addr = true →
    (maskedIn 0x1f801070 8 addr → exec (.storeIrq addr v) s = .next { s with reply := some .stored }) ∧
    (maskedIn 0x1f801100 48 addr → exec (.storeTimers addr v) s = .next { s with reply := some .stored }) ∧
    (maskedIn 0x1f801c00 640 addr → exec (.storeSpu addr v) s = .next { s with reply := some .stored }) ∧
    (maskedIn 0x1f801060 4 addr → exec (.storeRamSize addr v) s = .next { s with reply := some .stored }) ∧
    (maskedIn 0x1f802000 66 addr → exec (.storeExp2 addr v) s = .next { s with reply := some .stored })

/-- STORE.GPU completes with one GpuStore event (R155). -/
def Obligations.StoreGpuRecordsTheCall : Prop :=
  ∀ (addr : Word) (v : Value) (s : State), s.ready → aligned v.width addr = true → maskedIn 0x1f801810 8 addr →
    exec (.storeGpu addr v) s =
      .next { s with
        gpuTrace := s.gpuTrace ++ [.gpuStore (maskRegion addr - 0x1f801810#32) v], reply := some .stored }

/-- STORE.CACHECTL writes all 32 bits by word and latches F3 by narrower stores (R158, R283). -/
def Obligations.StoreCacheCtlIsWordOnly : Prop :=
  ∀ (addr : Word) (v : Value) (s : State), s.ready → aligned v.width addr = true → maskedIn 0xfffe0130 4 addr →
    (∀ w : Word, v = .word w →
      ∃ t, exec (.storeCacheCtl addr v) s = .next t ∧ t = { s with cacheControl := w, reply := some .stored } ∧
        t.icacheEnabled = w.getLsbD 11 ∧ t.tagTestMode = w.getLsbD 2) ∧
    (v.width ≠ .word →
      exec (.storeCacheCtl addr v) s =
        .next { s with halt := some (.cacheControlWidth addr v.width), reply := none })

/-- STORE.MEMCTL checks offsets 0 and 4 and stores nothing (40_bus_load_store.md R159, 60_exceptions.md R292, log entry 24).
What a narrow store does is decision D24, log entry 24 (DEDUCED). -/
def Obligations.StoreMemCtlChecksTheExpansionBases : Prop :=
  ∀ (addr : Word) (v : Value) (s : State), s.ready → aligned v.width addr = true → maskedIn 0x1f801000 36 addr →
    ((maskRegion addr = 0x1f801000#32 ∧ asU32 v ≠ 0x1f000000#32) →
      exec (.storeMemCtl addr v) s =
        .next { s with halt := some (.expansionBaseMismatch addr 0#32 (asU32 v)), reply := none }) ∧
    ((maskRegion addr = 0x1f801004#32 ∧ asU32 v ≠ 0x1f802000#32) →
      exec (.storeMemCtl addr v) s =
        .next { s with halt := some (.expansionBaseMismatch addr 4#32 (asU32 v)), reply := none }) ∧
    (¬ (maskRegion addr = 0x1f801000#32 ∧ asU32 v ≠ 0x1f000000#32) →
      ¬ (maskRegion addr = 0x1f801004#32 ∧ asU32 v ≠ 0x1f802000#32) →
      exec (.storeMemCtl addr v) s = .next { s with reply := some .stored })

/-- STORE.UNMAPPED latches F2 and changes nothing else (R162, R282). -/
def Obligations.StoreUnmappedHaltsWithF2 : Prop :=
  ∀ (addr : Word) (v : Value) (s : State), s.ready → aligned v.width addr = true →
    ¬ maskedIn 0 0x200000 addr → ¬ maskedIn 0x1f801070 8 addr → ¬ maskedIn 0x1f801080 128 addr →
    ¬ maskedIn 0x1f801810 8 addr → ¬ maskedIn 0x1f801100 48 addr → ¬ maskedIn 0x1f801c00 640 addr →
    ¬ maskedIn 0xfffe0130 4 addr → ¬ maskedIn 0x1f801000 36 addr → ¬ maskedIn 0x1f801060 4 addr →
    ¬ maskedIn 0x1f802000 66 addr →
    exec (.storeUnmapped addr v) s =
      .next { s with halt := some (.unmappedStore addr (maskRegion addr) v), reply := none }

/-- STORE.DMA by word runs the register's write and always completes or halts (40_bus_load_store.md R154, 41_dma_registers.md
R180, R200, R201, 10_state.md R34, log entries 17, 30). That RAM and the trace are as before when a transfer has started is
the engine's granularity and the start inside the write, decision D13, log entries 17 and 30 (DEDUCED). -/
def Obligations.StoreDmaRunsTheRegisterWrite : Prop :=
  ∀ (addr val : Word) (s : State), s.ready → aligned .word addr = true → maskedIn 0x1f801080 128 addr →
    exec (.storeDma addr (.word val)) s = exec (wrInstr ((maskRegion addr - 0x1f801080#32).setWidth 7) val) s ∧
    (∃ t, exec (.storeDma addr (.word val)) s = .next t ∧ t.ram = s.ram ∧ t.gpuTrace = s.gpuTrace) ∧
    ((regSel ((maskRegion addr - 0x1f801080#32).setWidth 7) = .dmaCtl ∨
        regSel ((maskRegion addr - 0x1f801080#32).setWidth 7) = .dmaIrq ∨
        ∃ p r, regSel ((maskRegion addr - 0x1f801080#32).setWidth 7) = .channel p r ∧
          (r = .chctl → syncField val ≠ 3#2 ∧ activeOf val = false) ∧ (r ≠ .chctl → s.active p = false)) →
      ∃ t, exec (.storeDma addr (.word val)) s = .next t ∧ t = { s with dma := t.dma, reply := some .stored })

/-- Each of the 21 channel register reads completes with its register (41_dma_registers.md R182, R183, R184, log entries 12,
29). The halves of block control are presumed, log entry 12 (PRESUMED), and that all 32 bits are returned as last written is
decision D7, log entry 29 (DEDUCED). -/
def Obligations.ChannelReadsReturnTheRegisters : Prop :=
  ∀ s : State, s.ready →
    exec .rdBaseMdecIn s = .next { s with reply := some (.loaded (.word s.dma.ch.mdecIn.base)) } ∧
    exec .rdBlockMdecIn s = .next { s with reply := some (.loaded (.word (s.dma.ch.mdecIn.blockCount ++ s.dma.ch.mdecIn.blockSize))) } ∧
    exec .rdChctlMdecIn s = .next { s with reply := some (.loaded (.word s.dma.ch.mdecIn.control)) } ∧
    exec .rdBaseMdecOut s = .next { s with reply := some (.loaded (.word s.dma.ch.mdecOut.base)) } ∧
    exec .rdBlockMdecOut s = .next { s with reply := some (.loaded (.word (s.dma.ch.mdecOut.blockCount ++ s.dma.ch.mdecOut.blockSize))) } ∧
    exec .rdChctlMdecOut s = .next { s with reply := some (.loaded (.word s.dma.ch.mdecOut.control)) } ∧
    exec .rdBaseGpu s = .next { s with reply := some (.loaded (.word s.dma.ch.gpu.base)) } ∧
    exec .rdBlockGpu s = .next { s with reply := some (.loaded (.word (s.dma.ch.gpu.blockCount ++ s.dma.ch.gpu.blockSize))) } ∧
    exec .rdChctlGpu s = .next { s with reply := some (.loaded (.word s.dma.ch.gpu.control)) } ∧
    exec .rdBaseCdRom s = .next { s with reply := some (.loaded (.word s.dma.ch.cdRom.base)) } ∧
    exec .rdBlockCdRom s = .next { s with reply := some (.loaded (.word (s.dma.ch.cdRom.blockCount ++ s.dma.ch.cdRom.blockSize))) } ∧
    exec .rdChctlCdRom s = .next { s with reply := some (.loaded (.word s.dma.ch.cdRom.control)) } ∧
    exec .rdBaseSpu s = .next { s with reply := some (.loaded (.word s.dma.ch.spu.base)) } ∧
    exec .rdBlockSpu s = .next { s with reply := some (.loaded (.word (s.dma.ch.spu.blockCount ++ s.dma.ch.spu.blockSize))) } ∧
    exec .rdChctlSpu s = .next { s with reply := some (.loaded (.word s.dma.ch.spu.control)) } ∧
    exec .rdBasePio s = .next { s with reply := some (.loaded (.word s.dma.ch.pio.base)) } ∧
    exec .rdBlockPio s = .next { s with reply := some (.loaded (.word (s.dma.ch.pio.blockCount ++ s.dma.ch.pio.blockSize))) } ∧
    exec .rdChctlPio s = .next { s with reply := some (.loaded (.word s.dma.ch.pio.control)) } ∧
    exec .rdBaseOtc s = .next { s with reply := some (.loaded (.word s.dma.ch.otc.base)) } ∧
    exec .rdBlockOtc s = .next { s with reply := some (.loaded (.word (s.dma.ch.otc.blockCount ++ s.dma.ch.otc.blockSize))) } ∧
    exec .rdChctlOtc s = .next { s with reply := some (.loaded (.word s.dma.ch.otc.control)) }

/-- The two global registers: reads return them, writes store all 32 bits and start no transfer (41_dma_registers.md R185,
R186, R193, R194, R202, log entries 29, 34). That all 32 bits are stored and returned is decision D7, log entry 29, and that
no channel is examined decision D19, log entry 34 (each DEDUCED). -/
def Obligations.ControllerRegistersAreStoredAndReturned : Prop :=
  ∀ (val : Word) (s : State), s.ready →
    exec .rdDmactl s = .next { s with reply := some (.loaded (.word s.dma.control)) } ∧
    exec .rdDmairq s = .next { s with reply := some (.loaded (.word s.dma.interrupt)) } ∧
    exec (.wrDmactl val) s = .next { s with dma := { s.dma with control := val }, reply := some .stored } ∧
    exec (.wrDmairq val) s = .next { s with dma := { s.dma with interrupt := val }, reply := some .stored }

/-- Each of the 7 base writes completes, stores all 32 bits and starts no transfer (41_dma_registers.md R190, 10_state.md
R25, log entry 29). That all 32 bits are stored is decision D7, log entry 29 (DEDUCED). -/
def Obligations.BaseWritesStoreAllBits : Prop :=
  ∀ (val : Word) (s : State), s.ready →
    (activeOf s.dma.ch.mdecIn.control = false → exec (.wrBaseMdecIn val) s =
      .next { s with dma := { s.dma with ch := { s.dma.ch with mdecIn := { s.dma.ch.mdecIn with base := val } } }, reply := some .stored }) ∧
    (activeOf s.dma.ch.mdecOut.control = false → exec (.wrBaseMdecOut val) s =
      .next { s with dma := { s.dma with ch := { s.dma.ch with mdecOut := { s.dma.ch.mdecOut with base := val } } }, reply := some .stored }) ∧
    (activeOf s.dma.ch.gpu.control = false → exec (.wrBaseGpu val) s =
      .next { s with dma := { s.dma with ch := { s.dma.ch with gpu := { s.dma.ch.gpu with base := val } } }, reply := some .stored }) ∧
    (activeOf s.dma.ch.cdRom.control = false → exec (.wrBaseCdRom val) s =
      .next { s with dma := { s.dma with ch := { s.dma.ch with cdRom := { s.dma.ch.cdRom with base := val } } }, reply := some .stored }) ∧
    (activeOf s.dma.ch.spu.control = false → exec (.wrBaseSpu val) s =
      .next { s with dma := { s.dma with ch := { s.dma.ch with spu := { s.dma.ch.spu with base := val } } }, reply := some .stored }) ∧
    (activeOf s.dma.ch.pio.control = false → exec (.wrBasePio val) s =
      .next { s with dma := { s.dma with ch := { s.dma.ch with pio := { s.dma.ch.pio with base := val } } }, reply := some .stored }) ∧
    (activeOf s.dma.ch.otc.control = false → exec (.wrBaseOtc val) s =
      .next { s with dma := { s.dma with ch := { s.dma.ch with otc := { s.dma.ch.otc with base := val } } }, reply := some .stored })

/-- Each of the 7 block-control writes completes and stores size and count (41_dma_registers.md R191, log entry 12 (the
halves, presumed)). -/
def Obligations.BlockWritesStoreSizeAndCount : Prop :=
  ∀ (val : Word) (s : State), s.ready →
    (activeOf s.dma.ch.mdecIn.control = false → exec (.wrBlockMdecIn val) s =
      .next { s with dma := { s.dma with ch := { s.dma.ch with mdecIn := { s.dma.ch.mdecIn with blockSize := val.extractLsb' 0 16, blockCount := val.extractLsb' 16 16 } } }, reply := some .stored }) ∧
    (activeOf s.dma.ch.mdecOut.control = false → exec (.wrBlockMdecOut val) s =
      .next { s with dma := { s.dma with ch := { s.dma.ch with mdecOut := { s.dma.ch.mdecOut with blockSize := val.extractLsb' 0 16, blockCount := val.extractLsb' 16 16 } } }, reply := some .stored }) ∧
    (activeOf s.dma.ch.gpu.control = false → exec (.wrBlockGpu val) s =
      .next { s with dma := { s.dma with ch := { s.dma.ch with gpu := { s.dma.ch.gpu with blockSize := val.extractLsb' 0 16, blockCount := val.extractLsb' 16 16 } } }, reply := some .stored }) ∧
    (activeOf s.dma.ch.cdRom.control = false → exec (.wrBlockCdRom val) s =
      .next { s with dma := { s.dma with ch := { s.dma.ch with cdRom := { s.dma.ch.cdRom with blockSize := val.extractLsb' 0 16, blockCount := val.extractLsb' 16 16 } } }, reply := some .stored }) ∧
    (activeOf s.dma.ch.spu.control = false → exec (.wrBlockSpu val) s =
      .next { s with dma := { s.dma with ch := { s.dma.ch with spu := { s.dma.ch.spu with blockSize := val.extractLsb' 0 16, blockCount := val.extractLsb' 16 16 } } }, reply := some .stored }) ∧
    (activeOf s.dma.ch.pio.control = false → exec (.wrBlockPio val) s =
      .next { s with dma := { s.dma with ch := { s.dma.ch with pio := { s.dma.ch.pio with blockSize := val.extractLsb' 0 16, blockCount := val.extractLsb' 16 16 } } }, reply := some .stored }) ∧
    (activeOf s.dma.ch.otc.control = false → exec (.wrBlockOtc val) s =
      .next { s with dma := { s.dma with ch := { s.dma.ch with otc := { s.dma.ch.otc with blockSize := val.extractLsb' 0 16, blockCount := val.extractLsb' 16 16 } } }, reply := some .stored })

/-- Each of the 7 control writes stores all 32 bits where the value leaves the channel inactive (41_dma_registers.md R192,
R203, 10_state.md R27, log entry 29). That all 32 bits are stored is decision D7, log entry 29 (DEDUCED). -/
def Obligations.ControlWritesThatStartNothingStoreAllBits : Prop :=
  ∀ (val : Word) (s : State), s.ready → syncField val ≠ 3#2 → activeOf val = false →
    exec (.wrChctlMdecIn val) s =
      .next { s with dma := { s.dma with ch := { s.dma.ch with mdecIn := { s.dma.ch.mdecIn with control := val } } }, reply := some .stored } ∧
    exec (.wrChctlMdecOut val) s =
      .next { s with dma := { s.dma with ch := { s.dma.ch with mdecOut := { s.dma.ch.mdecOut with control := val } } }, reply := some .stored } ∧
    exec (.wrChctlGpu val) s =
      .next { s with dma := { s.dma with ch := { s.dma.ch with gpu := { s.dma.ch.gpu with control := val } } }, reply := some .stored } ∧
    exec (.wrChctlCdRom val) s =
      .next { s with dma := { s.dma with ch := { s.dma.ch with cdRom := { s.dma.ch.cdRom with control := val } } }, reply := some .stored } ∧
    exec (.wrChctlSpu val) s =
      .next { s with dma := { s.dma with ch := { s.dma.ch with spu := { s.dma.ch.spu with control := val } } }, reply := some .stored } ∧
    exec (.wrChctlPio val) s =
      .next { s with dma := { s.dma with ch := { s.dma.ch with pio := { s.dma.ch.pio with control := val } } }, reply := some .stored } ∧
    exec (.wrChctlOtc val) s =
      .next { s with dma := { s.dma with ch := { s.dma.ch with otc := { s.dma.ch.otc with control := val } } }, reply := some .stored }

/-- An activating control write in manual or request mode starts block mode inside the write (41_dma_registers.md R192, R200,
R201, 42_dma_block_transfer.md R220, R221, log entries 17, 29). That the start is inside the write is log entry 17, and that
all 32 bits are stored decision D7, log entry 29 (each DEDUCED). -/
def Obligations.ControlWritesStartBlockTransfers : Prop :=
  ∀ (p : Port) (val : Word) (s : State), s.ready → activeOf val = true →
    (syncOf val = some .manual →
      exec (wrChannelInstr val p .chctl) s =
        .next { s.setControl p val with
          eng := .block p (s.ch p).base ((s.ch p).blockSize.setWidth 32), reply := none }) ∧
    (syncOf val = some .request →
      exec (wrChannelInstr val p .chctl) s =
        .next { s.setControl p val with
          eng := .block p (s.ch p).base (BitVec.ofNat 32 ((s.ch p).blockSize.toNat * (s.ch p).blockCount.toNat))
          reply := none })

/-- An activating control write in linked-list mode starts the walk, or latches F9 or F10 (41_dma_registers.md R192, R200,
R201, 43_dma_linked_list.md R250 to R253, 60_exceptions.md R289, R290, log entries 17, 22, 29, 31). The cursor's mask is
decision D16, log entry 31, F9 whatever the direction decision D28, log entry 22, the start inside the write log entry 17,
and that all 32 bits are stored decision D7, log entry 29 (each DEDUCED). -/
def Obligations.ControlWritesStartListTransfers : Prop :=
  ∀ (p : Port) (val : Word) (s : State), s.ready → activeOf val = true → syncOf val = some .linkedList →
    (p = .gpu → directionOf val = .fromRam →
      exec (wrChannelInstr val p .chctl) s =
        .next { s.setControl p val with eng := .listHeader ((s.ch p).base &&& 0x001ffffc#32), reply := none }) ∧
    (p = .gpu → directionOf val = .toRam →
      exec (wrChannelInstr val p .chctl) s =
        .next { s.setControl p val with halt := some (.dmaListDirection p), reply := none }) ∧
    (p ≠ .gpu →
      exec (wrChannelInstr val p .chctl) s =
        .next { s.setControl p val with halt := some (.dmaListPort p), reply := none })

/-- A control value with sync field 3 latches F6 and leaves the register (41_dma_registers.md R196, 60_exceptions.md R286,
log entry 15). The spec's own choice, decision D8, log entry 15 (DEDUCED). -/
def Obligations.SyncModeThreeIsFatal : Prop :=
  ∀ (p : Port) (val : Word) (s : State), s.ready → syncField val = 3#2 →
    exec (wrChannelInstr val p .chctl) s =
      .next { s with halt := some (.dmaUnknownSyncMode p val), reply := none }

/-- The nine reserved offsets latch F5 on a word read or write (R187, R195, R285). -/
def Obligations.ReservedOffsetsAreFatal : Prop :=
  (∀ off : BitVec 7, off ∈ [0x0c#7, 0x1c#7, 0x2c#7, 0x3c#7, 0x4c#7, 0x5c#7, 0x6c#7, 0x78#7, 0x7c#7] ↔
    alignedOffset off = true ∧ regSel off = .reserved) ∧
  ∀ (off : BitVec 7) (val : Word) (s : State), s.ready →
    off ∈ [0x0c#7, 0x1c#7, 0x2c#7, 0x3c#7, 0x4c#7, 0x5c#7, 0x6c#7, 0x78#7, 0x7c#7] →
    exec (.rdReserved off) s = .next { s with halt := some (.dmaBadRegister .load off), reply := none } ∧
    exec (.wrReserved off val) s = .next { s with halt := some (.dmaBadRegister .store off), reply := none }

/-- The active predicate (10_state.md R32, log entry 14). That a word whose sync field is 3 is inactive is log entry 14
(DEDUCED). -/
def Obligations.ActiveIsEnableAndTriggerInManualMode : Prop :=
  (∀ ctl : Word, syncOf ctl ≠ none →
    (activeOf ctl = true ↔ enableOf ctl = true ∧ (syncOf ctl = some .manual → triggerOf ctl = true))) ∧
  (∀ ctl : Word, activeOf ctl = true ↔
    enableOf ctl = true ∧
      ((syncOf ctl = some .manual ∧ triggerOf ctl = true) ∨ syncOf ctl = some .request ∨
        (syncOf ctl = some .linkedList ∧ enableOf ctl = true))) ∧
  ∀ (s : State) (p : Port), s.active p = activeOf (s.ch p).control

/-- The derived transfer size (10_state.md R33, 00_scope.md R11 (b)). -/
def Obligations.TransferSizeIsSizeOrProduct : Prop :=
  ∀ c : Channel,
    (syncOf c.control = some .manual → transferSize c = some (c.blockSize.setWidth 32)) ∧
    (syncOf c.control = some .request →
      ∃ n, transferSize c = some n ∧ n.toNat = c.blockSize.toNat * c.blockCount.toNat) ∧
    (syncOf c.control = some .linkedList → transferSize c = none)

/-- Done clears ENABLE and TRIGGER and nothing else (41_dma_registers.md R204, log entry 16). Which bits are cleared is
decision D9, log entry 16 (DEDUCED). -/
def Obligations.DoneClearsExactlyEnableAndTrigger : Prop :=
  ∀ (p : Port) (s : State),
    ∃ t, done p s = .next t ∧ t.eng = .idle ∧ t.active p = false ∧
      (∀ i, (t.ch p).control.getLsbD i =
        ((s.ch p).control.getLsbD i && (i != Config.chcrEnableBit) && (i != Config.chcrTriggerBit))) ∧
      t.ch p = { s.ch p with control := (t.ch p).control } ∧
      (∀ q, q ≠ p → t.ch q = s.ch q) ∧
      t = { s with dma := { s.dma with ch := t.dma.ch }, eng := .idle, reply := some .stored }

/-- ENG.BLOCK_START and ENG.LIST_START complete; the list start checks the port before the direction
(42_dma_block_transfer.md R221, 43_dma_linked_list.md R251, R252, R253, log entries 17, 22, 31). The cursor's mask is
decision D16, log entry 31, port before direction decision D28, log entry 22, and the starts as rows of their own log entry
17 (each DEDUCED). -/
def Obligations.EngineStartsLoadTheEngineState : Prop :=
  ∀ (p : Port) (s : State), s.ready →
    (∀ n, transferSize (s.ch p) = some n →
      exec (.engBlockStart p) s = .next { s with eng := .block p (s.ch p).base n }) ∧
    (transferSize (s.ch p) = none →
      exec (.engBlockStart p) s = .next { s with halt := some (.dmaSizeIndeterminate p) }) ∧
    (p = .gpu → directionOf (s.ch p).control = .fromRam →
      exec (.engListStart p) s = .next { s with eng := .listHeader ((s.ch p).base &&& 0x001ffffc#32) }) ∧
    (p = .gpu → directionOf (s.ch p).control = .toRam →
      exec (.engListStart p) s = .next { s with halt := some (.dmaListDirection p) }) ∧
    (p ≠ .gpu → exec (.engListStart p) s = .next { s with halt := some (.dmaListPort p) })

/-- ENG.BLOCK_GPU_WORD completes: one Gp0 event, the address stepped, the count decremented (42_dma_block_transfer.md R224,
R222, R229, log entry 32). That the running address is 32 bits and wraps is decision D17, log entry 32 (DEDUCED). -/
def Obligations.BlockGpuWordForwardsOneWord : Prop :=
  ∀ (addr n : Word) (s : State), s.halt = none → s.eng = .block .gpu addr n → n ≠ 0#32 →
    directionOf (s.ch .gpu).control = .fromRam →
    exec .engBlockGpuWord s =
      .next { s with
        gpuTrace := s.gpuTrace ++ [.gp0 (asU32 (memRead s.ramByte (addr &&& 0x001ffffc#32).toNat .word))]
        eng := .block .gpu
          (match stepOf (s.ch .gpu).control with | .increment => addr + 4#32 | .decrement => addr - 4#32)
          (n - 1#32) }

/-- ENG.BLOCK_OTC_WORD completes: one table word written, nothing sent (42_dma_block_transfer.md R226, R228, R229, log
entries 20, 32). The pointer made of the unmasked running address is decision D18, log entry 20, and that the address is 32
bits and wraps decision D17, log entry 32 (each DEDUCED). -/
def Obligations.BlockOtcWordWritesOneTableEntry : Prop :=
  ∀ (addr n : Word) (s : State), s.halt = none → s.eng = .block .otc addr n → n ≠ 0#32 →
    directionOf (s.ch .otc).control = .toRam →
    ∃ t, exec .engBlockOtcWord s = .next t ∧
      t = { s with
        ram := t.ram
        eng := .block .otc
          (match stepOf (s.ch .otc).control with | .increment => addr + 4#32 | .decrement => addr - 4#32)
          (n - 1#32) } ∧
      t.ramWord (addr &&& 0x001ffffc#32) =
        (if n = 1#32 then 0x00ffffff#32 else (addr - 4#32) &&& 0x001fffff#32) ∧
      ∀ y, (y < (addr &&& 0x001ffffc#32).toNat ∨ (addr &&& 0x001ffffc#32).toNat + 4 ≤ y) → t.ramByte y = s.ramByte y

/-- The two fatal block rows latch F7 and F8 and move nothing (42_dma_block_transfer.md R225, R227, R232, log entry 33). What
a count of zero does is decision D22, log entry 33 (DEDUCED). -/
def Obligations.UnimplementedBlockPortsAreFatal : Prop :=
  ∀ (p : Port) (addr n : Word) (s : State), s.halt = none → s.eng = .block p addr n →
    (n ≠ 0#32 → directionOf (s.ch p).control = .fromRam → p ≠ .gpu →
      exec .engBlockFromRamFatal s = .next { s with halt := some (.dmaBlockDestPort p) } ∧
      step s = exec .engBlockFromRamFatal s) ∧
    (n ≠ 0#32 → directionOf (s.ch p).control = .toRam → p ≠ .otc →
      exec .engBlockToRamFatal s = .next { s with halt := some (.dmaBlockSourcePort p) } ∧
      step s = exec .engBlockToRamFatal s) ∧
    (n = 0#32 → ∃ t, step s = .next t ∧ t.halt = none)

/-- ENG.BLOCK_DONE completes a block transfer (42_dma_block_transfer.md R230, 41_dma_registers.md R204, log entry 16). Which
bits done clears is decision D9, log entry 16 (DEDUCED). -/
def Obligations.BlockDoneMarksTheChannelDone : Prop :=
  ∀ (p : Port) (addr : Word) (s : State), s.halt = none → s.eng = .block p addr 0#32 →
    exec .engBlockDone s =
      .next { s.setControl p (doneControl (s.ch p).control) with eng := .idle, reply := some .stored } ∧
    enableOf (doneControl (s.ch p).control) = false ∧ triggerOf (doneControl (s.ch p).control) = false ∧
    activeOf (doneControl (s.ch p).control) = false

/-- ENG.LIST_HEADER and ENG.LIST_WORD complete (43_dma_linked_list.md R254, R255, 20_memory.md R72, log entry 31). The mask
on the payload address is decision D16, log entry 31 (DEDUCED). -/
def Obligations.ListStepsReadTheHeaderAndForwardTheWords : Prop :=
  (∀ (cursor : Word) (s : State), s.halt = none → s.eng = .listHeader cursor →
    exec .engListHeader s =
      .next { s with eng := .listPayload cursor ((s.ramWord cursor).extractLsb' 24 8) (s.ramWord cursor) }) ∧
  ∀ (addr header : Word) (left : Byte) (s : State), s.halt = none → s.eng = .listPayload addr left header →
    left ≠ 0#8 →
    exec .engListWord s =
      .next { s with
        gpuTrace := s.gpuTrace ++ [.gp0 (s.ramWord ((addr + 4#32) &&& 0x001ffffc#32))]
        eng := .listPayload ((addr + 4#32) &&& 0x001ffffc#32) (left - 1#8) header }

/-- ENG.LIST_NEXT and ENG.LIST_END complete; bit 23 of the header alone decides between them (43_dma_linked_list.md R257,
R258, R259, 41_dma_registers.md R204, log entries 16, 31). The next cursor's mask is decision D16, log entry 31, and which
bits done clears decision D9, log entry 16 (each DEDUCED). -/
def Obligations.ListEndTestIsBitTwentyThree : Prop :=
  ∀ (addr header : Word) (s : State), s.halt = none → s.eng = .listPayload addr 0#8 header →
    (header &&& 0x00800000#32 = 0#32 →
      exec .engListNext s = .next { s with eng := .listHeader (header &&& 0x001ffffc#32) } ∧
      step s = exec .engListNext s) ∧
    (header &&& 0x00800000#32 ≠ 0#32 →
      exec .engListEnd s =
        .next { s.setControl .gpu (doneControl (s.ch .gpu).control) with eng := .idle, reply := some .stored } ∧
      step s = exec .engListEnd s)

/-- A step of the ready block is the decoded operation at the head of the queue (00_scope.md R5, R6, 10_state.md R34, log
entries 1, 4, 19, 25). That an idle block with an empty queue waits is the model's choice, log entry 4, the queue log entry
1, the table words log entries 19 and 25 (each DESIGN CHOICE). -/
def Obligations.StepRunsTheDecodedRequest : Prop :=
  (∀ (s : State) (r : Request) (rs : List Request) (i : Instr), s.ready → s.requests = r :: rs → decode r = .ok i →
    step s = exec i { s with requests := rs }) ∧
  (∀ s : State, s.ready → s.requests = [] → step s = .next s) ∧
  ∀ (s : State) (nbits w : Nat) (i : Instr), decodeTableWord nbits w = some i →
    step (s.withFetchWord nbits w) = exec i { s with eng := .idle, halt := none }

/-- While the engine runs the step is the engine's row, it always answers a next state, and the CPU waits (00_scope.md R6,
10_state.md R34, 60_exceptions.md R293). -/
def Obligations.RunningEngineAlwaysSteps : Prop :=
  ∀ s : State, s.halt = none → s.eng ≠ .idle →
    ∃ i t, selectEngine s = some i ∧ step s = exec i s ∧ exec i s = .next t ∧ t.requests = s.requests

/-- From a halted state no step is taken and no instruction answers a next state (10_state.md R35, 60_exceptions.md R300,
R301, log entry 5). The latch as state is decision D14, log entry 5 (DEDUCED). -/
def Obligations.HaltedBlockTakesNoStep : Prop :=
  (∀ (s : State) (c : Cause), s.halt = some c → step s = .fault (.halted c)) ∧
  ∀ (i : Instr) (s t : State), s.halt ≠ none → exec i s ≠ .next t

/-- A misaligned operation, and one issued while halted or while the engine runs, is refused (60_exceptions.md R304,
20_memory.md R71, log entries 1, 6). The refusals are decision D2, log entry 6 (DEDUCED), the queue is log entry 1 (DESIGN
CHOICE). -/
def Obligations.MisalignedAndUnacceptedOperationsAreRefused : Prop :=
  (∀ (s : State) (T : Width) (addr : Word) (rs : List Request), s.ready → s.requests = .load T addr :: rs →
    addr.toNat % T.bytes ≠ 0 → step s = .refused .misaligned) ∧
  (∀ (s : State) (addr : Word) (v : Value) (rs : List Request), s.ready → s.requests = .store addr v :: rs →
    addr.toNat % v.width.bytes ≠ 0 → step s = .refused .misaligned) ∧
  ∀ (r : Request) (i : Instr) (s : State), decode r = .ok i → (s.halt ≠ none ∨ s.eng ≠ .idle) →
    exec i s = .refused .notAccepted

/-- Decoding the encoding of a well-formed instruction gives it back (30_encoding.md R101, R110, R132, log entries 2, 21,
28). The split of an offset is log entry 28 (DEDUCED), the numbering of the channels log entry 21 (PRESUMED), and the
requests by offset log entry 2 (DESIGN CHOICE). -/
def Obligations.DecodeInvertsEncode : Prop :=
  (∀ (i : Instr) (r : Request), i.wf = true → encode i = some r → decode r = .ok i) ∧
  ∀ i : Instr, encode i = none ↔
    (∃ p, i = .engBlockStart p ∨ i = .engListStart p) ∨
      i ∈ [.engBlockGpuWord, .engBlockFromRamFatal, .engBlockOtcWord, .engBlockToRamFatal, .engBlockDone,
        .engListHeader, .engListWord, .engListNext, .engListEnd]

/-- Every decoded instruction is well formed, and only misaligned requests are rejected (20_memory.md R66, R67, R71,
30_encoding.md R110, 60_exceptions.md R297, R304, log entries 2, 6). That a misaligned request is rejected is decision D2,
log entry 6 (DEDUCED), and the request by offset and its rejection are the model's own, log entries 2 (DESIGN CHOICE) and 6.
-/
def Obligations.DecodedInstructionsAreWellFormed : Prop :=
  (∀ (r : Request) (i : Instr), decode r = .ok i → i.wf = true) ∧
  (∀ (T : Width) (addr : Word), decode (.load T addr) = .error .misaligned ↔ addr.toNat % T.bytes ≠ 0) ∧
  (∀ (addr : Word) (v : Value), decode (.store addr v) = .error .misaligned ↔ addr.toNat % v.width.bytes ≠ 0) ∧
  (∀ off : BitVec 7, decode (.dmaRead off) = .error .misaligned ↔ off.toNat % 4 ≠ 0) ∧
  ∀ (off : BitVec 7) (val : Word), decode (.dmaWrite off val) = .error .misaligned ↔ off.toNat % 4 ≠ 0

/-- A few written-out operations decode to the rows they stand for (95_test_vectors.md V-MASK, V-MAP, 30_encoding.md R110,
log entries 2, 21, 28). The split of an offset is log entry 28 (DEDUCED), the numbering of the channels log entry 21
(PRESUMED), and the requests by offset log entry 2 (DESIGN CHOICE). -/
def Obligations.SampleRequestsDecodeToTheirRows : Prop :=
  decode (.load .word 0x80000100#32) = .ok (.loadRam .word 0x80000100#32) ∧
  decode (.load .word 0xbfc00000#32) = .ok (.loadBios .word 0xbfc00000#32) ∧
  decode (.load .word 0xfffe0130#32) = .ok (.loadUnmapped .word 0xfffe0130#32) ∧
  decode (.store 0xfffe0130#32 (.word 0x804#32)) = .ok (.storeCacheCtl 0xfffe0130#32 (.word 0x804#32)) ∧
  decode (.store 0x9f8010a8#32 (.word 0x01000401#32)) = .ok (.storeDma 0x9f8010a8#32 (.word 0x01000401#32)) ∧
  decode (.dmaWrite 0x28#7 0x01000401#32) = .ok (.wrChctlGpu 0x01000401#32) ∧
  decode (.dmaRead 0x6c#7) = .ok (.rdReserved 0x6c#7)

/-- The state after reset holds every value the spec states (10_state.md R45 (the rows with a value), R28 to R32,
70_reset_and_hazards.md R320, log entry 11). The values are the spec's; what the zero control word decodes to rests on the
presumed layout and codes, log entry 11 (PRESUMED). -/
def Obligations.ResetGivesTheStatedValues : Prop :=
  (∀ p : Port, State.reset.ch p = ⟨0#32, 0#16, 0#16, 0#32⟩) ∧
  (∀ p : Port, directionOf (State.reset.ch p).control = .toRam ∧ stepOf (State.reset.ch p).control = .increment ∧
    syncOf (State.reset.ch p).control = some .manual ∧ enableOf (State.reset.ch p).control = false ∧
    triggerOf (State.reset.ch p).control = false ∧ State.reset.active p = false) ∧
  State.reset.eng = .idle ∧ State.reset.halt = none ∧ State.reset.gpuTrace = []

/-- The state after reset meets every invariant (10_state.md R39, R45, log entry 7 (canonical memory)). -/
def Obligations.ResetMeetsTheInvariants : Prop :=
  MemoryInv State.reset ∧ SyncInv State.reset ∧ QuietInv State.reset ∧ TransferInv State.reset ∧
    WindowInv State.reset ∧ ReplyInv State.reset

/-- Every step keeps RAM and BIOS in canonical form and inside their sizes (20_memory.md R71, R72, log entry 7 (canonical
memory)). -/
def Obligations.EveryStepKeepsTheMemoryCanonical : Prop :=
  ∀ s t : State, MemoryInv s → step s = .next t → MemoryInv t

/-- Every step keeps the channel invariant: idle and not halted means no channel is active (10_state.md R39, R27,
41_dma_registers.md R196, R203, R206, log entries 14, 15). R39 and R206 are derived by the spec; that sync field 3 is never
stored is decision D8, log entry 15 (DEDUCED). -/
def Obligations.NoChannelIsActiveBetweenOperations : Prop :=
  (SyncInv State.reset ∧ QuietInv State.reset ∧ TransferInv State.reset) ∧
  ∀ s t : State, SyncInv s ∧ QuietInv s ∧ TransferInv s → step s = .next t →
    SyncInv t ∧ QuietInv t ∧ TransferInv t

/-- Every step keeps the list addresses in the RAM window and hands nothing back while the engine runs (10_state.md R34,
41_dma_registers.md R200, log entry 3 (reply)). -/
def Obligations.EngineAddressesStayInTheWindow : Prop :=
  (∀ s t : State, WindowInv s → step s = .next t → WindowInv t) ∧
  ∀ s t : State, ReplyInv s → step s = .next t → ReplyInv t

/-- BIOS never changes; cache control changes by word stores to its address only; the interrupt register by its own writes
only (10_state.md R22, R23, R37, 40_bus_load_store.md R158, 41_dma_registers.md R194, R204, log entries 1, 2). The queue is
log entry 1 and a request by offset log entry 2 (each DESIGN CHOICE). -/
def Obligations.CacheControlAndBiosChangeOnlyAsStated : Prop :=
  ∀ s t : State, step s = .next t →
    t.bios = s.bios ∧
    (t.cacheControl ≠ s.cacheControl →
      ∃ addr w rs, s.requests = .store addr (.word w) :: rs ∧ maskedIn 0xfffe0130 4 addr ∧ t.cacheControl = w) ∧
    (t.dma.interrupt ≠ s.dma.interrupt →
      ∃ w rs, t.dma.interrupt = w ∧
        (s.requests = .dmaWrite 0x74#7 w :: rs ∨
          ∃ addr, s.requests = .store addr (.word w) :: rs ∧ maskRegion addr = 0x1f8010f4#32))

/-- An engine step changes no register but two bits of its own channel's control word, and RAM or the trace by the direction
(10_state.md R43, 42_dma_block_transfer.md R238, 43_dma_linked_list.md R263, log entries 16, 30). R238 and R263 are derived
by the spec; the bits done clears are log entry 16, the engine's steps log entry 30 (each DEDUCED). -/
def Obligations.TransfersLeaveTheRegisters : Prop :=
  ∀ s t : State, s.eng ≠ .idle → step s = .next t →
    (∀ p, s.eng.port? ≠ some p → t.ch p = s.ch p) ∧
    (∀ p, s.eng.port? = some p →
      t.ch p = if t.eng = .idle then { s.ch p with control := doneControl (s.ch p).control } else s.ch p) ∧
    t.dma.control = s.dma.control ∧ t.dma.interrupt = s.dma.interrupt ∧ t.cacheControl = s.cacheControl ∧
    t.bios = s.bios ∧ t.gpuFree = s.gpuFree ∧ t.requests = s.requests ∧
    (∀ p addr n, s.eng = .block p addr n →
      ((directionOf (s.ch p).control = .fromRam ∨ p ≠ .otc) → t.ram = s.ram) ∧
      ((directionOf (s.ch p).control = .toRam ∨ p ≠ .gpu) → t.gpuTrace = s.gpuTrace)) ∧
    ((∀ p addr n, s.eng ≠ .block p addr n) → t.ram = s.ram)

/-- No step raises F11 (42_dma_block_transfer.md R233, R220, 10_state.md R33, log entry 14). R233 is derived by the spec, and
on words with sync field 3 it rests on log entry 14 (DEDUCED). -/
def Obligations.SizeIsNeverIndeterminate : Prop :=
  ∀ (s t : State) (p : Port), step s = .next t → t.halt ≠ some (.dmaSizeIndeterminate p)

/-- The steps of a block transfer equal the loop DoBlock (42_dma_block_transfer.md R231, R232, 10_state.md R34, log entries
30, 33). The steps are decision D13, log entry 30, and the count of zero decision D22, log entry 33 (each DEDUCED). -/
def Obligations.BlockStepsEqualTheLoop : Prop :=
  ∀ (p : Port) (n : Word) (s : State), s.ready → transferSize (s.ch p) = some n →
    ((n = 0#32 ∨ (directionOf (s.ch p).control = .fromRam ∧ p = .gpu) ∨
        (directionOf (s.ch p).control = .toRam ∧ p = .otc)) →
      run (n.toNat + 1) { s with eng := .block p (s.ch p).base n } = doBlock p s) ∧
    (n ≠ 0#32 → directionOf (s.ch p).control = .fromRam → p ≠ .gpu →
      doBlock p s = .next { s with halt := some (.dmaBlockDestPort p) } ∧
      run 1 { s with eng := .block p (s.ch p).base n } =
        .next { s with eng := .block p (s.ch p).base n, halt := some (.dmaBlockDestPort p) }) ∧
    (n ≠ 0#32 → directionOf (s.ch p).control = .toRam → p ≠ .otc →
      doBlock p s = .next { s with halt := some (.dmaBlockSourcePort p) } ∧
      run 1 { s with eng := .block p (s.ch p).base n } =
        .next { s with eng := .block p (s.ch p).base n, halt := some (.dmaBlockSourcePort p) })

/-- A block transfer of n words takes n+1 steps, halts at the first on an unimplemented port, and is ready after one when n
is 0 (42_dma_block_transfer.md R234, R232, R225, R227, log entries 30, 33). One word a step is decision D13, log entry 30,
the count of zero decision D22, log entry 33 (each DEDUCED). -/
def Obligations.BlockTransfersTerminate : Prop :=
  (∀ (p : Port) (addr n : Word) (s : State), s.halt = none → s.eng = .block p addr n →
    ((directionOf (s.ch p).control = .fromRam ∧ p = .gpu) ∨ (directionOf (s.ch p).control = .toRam ∧ p = .otc)) →
    (∀ k, k ≤ n.toNat → ∃ t a, run k s = .next t ∧ t.halt = none ∧ t.eng = .block p a (n - BitVec.ofNat 32 k)) ∧
    ∃ t, run (n.toNat + 1) s = .next t ∧ t.ready) ∧
  (∀ (p : Port) (addr n : Word) (s : State), s.halt = none → s.eng = .block p addr n → n ≠ 0#32 →
    (directionOf (s.ch p).control = .fromRam → p ≠ .gpu →
      run 1 s = .next { s with halt := some (.dmaBlockDestPort p) }) ∧
    (directionOf (s.ch p).control = .toRam → p ≠ .otc →
      run 1 s = .next { s with halt := some (.dmaBlockSourcePort p) })) ∧
  (∀ (p : Port) (addr : Word) (s : State), s.halt = none → s.eng = .block p addr 0#32 →
    ∃ t, run 1 s = .next t ∧ t.ready) ∧
  ∀ (c : Channel) (n : Word), transferSize c = some n →
    (syncOf c.control = some .manual → n.toNat ≤ 0xffff) ∧ n.toNat ≤ 0xfffe0001

/-- An ordering-table clear writes a chain of empty packets ending at the marker (42_dma_block_transfer.md R236, R235, log
entries 30, 32). R235 and R236 are derived by the spec; the steps are log entry 30 and the wrap log entry 32 (each DEDUCED).
-/
def Obligations.OrderingTableClearInClosedForm : Prop :=
  ∀ (b n : Word) (s : State), s.halt = none → s.eng = .block .otc b n →
    directionOf (s.ch .otc).control = .toRam → stepOf (s.ch .otc).control = .decrement →
    b &&& 3#32 = 0#32 → 1 ≤ n.toNat → n.toNat ≤ 0x80000 →
    ∃ t, run (n.toNat + 1) s = .next t ∧ t.ready ∧ t.gpuTrace = s.gpuTrace ∧
      (∀ k, k < n.toNat →
        t.ramWord ((b - BitVec.ofNat 32 (4 * k)) &&& 0x001ffffc#32) =
          (if k + 1 = n.toNat then 0x00ffffff#32
          else (b - BitVec.ofNat 32 (4 * k) - 4#32) &&& 0x001fffff#32)) ∧
      ∀ y, (∀ k, k < n.toNat →
          y < ((b - BitVec.ofNat 32 (4 * k)) &&& 0x001ffffc#32).toNat ∨
            ((b - BitVec.ofNat 32 (4 * k)) &&& 0x001ffffc#32).toNat + 4 ≤ y) →
        t.ramByte y = s.ramByte y

/-- A block transfer to the video port forwards its words in order and is then done (42_dma_block_transfer.md R237, R224,
R229, log entries 16, 30, 32). The general form of R237 is derived by the spec; the steps are log entry 30, the wrap log
entry 32, and the bits done clears log entry 16 (each DEDUCED). -/
def Obligations.VideoBlockTransferForwardsInOrder : Prop :=
  ∀ (b n : Word) (s : State), s.halt = none → s.eng = .block .gpu b n →
    directionOf (s.ch .gpu).control = .fromRam →
    run (n.toNat + 1) s =
      .next { s.setControl .gpu (doneControl (s.ch .gpu).control) with
        eng := .idle
        gpuTrace := s.gpuTrace ++ (List.range n.toNat).map fun k =>
          .gp0 (s.ramWord ((match stepOf (s.ch .gpu).control with
            | .increment => b + BitVec.ofNat 32 (4 * k)
            | .decrement => b - BitVec.ofNat 32 (4 * k)) &&& 0x001ffffc#32))
        reply := some .stored }

/-- The steps of a list transfer equal the walk, where the walk ends (43_dma_linked_list.md R260, 43_dma_linked_list.md R254
to R259, log entries 16, 30, 31). The steps are log entry 30, the mask on list addresses log entry 31, and the bits done
clears log entry 16 (each DEDUCED). -/
def Obligations.ListStepsEqualTheWalk : Prop :=
  ∀ (cursor : Word) (s : State) (k : Nat) (ws : List GpuEvent), s.halt = none → s.eng = .listHeader cursor →
    walk s k cursor = some ws →
    ∃ n, run n s =
      .next { s.setControl .gpu (doneControl (s.ch .gpu).control) with
        eng := .idle, gpuTrace := s.gpuTrace ++ ws, reply := some .stored }

/-- A list whose chain never reaches bit 23 never ends and never halts, and a chain that returns to a header never reaches it
(43_dma_linked_list.md R261, 70_reset_and_hazards.md R332, log entries 30, 31). The engine's steps are log entry 30, the mask
on next pointers log entry 31 (each DEDUCED). -/
def Obligations.UnterminatedListsRunForever : Prop :=
  (∀ (cursor : Word) (s : State), s.halt = none → s.eng = .listHeader cursor → (∀ k, walk s k cursor = none) →
    ∀ n, ∃ t, run n s = .next t ∧ t.halt = none ∧ t.eng ≠ .idle ∧ t.ram = s.ram ∧ t.reply = s.reply) ∧
  ∀ (s : State) (c : Nat → Word) (n m : Nat), n < m → c m = c n →
    (∀ i, i < m → s.ramWord (c i) &&& 0x00800000#32 = 0#32 ∧ c (i + 1) = s.ramWord (c i) &&& 0x001ffffc#32) →
    ∀ k, walk s k (c 0) = none

end
end

