-- ==== Sys2Proof/Laws/Decode.lean ====
section
/-!
SUPPORT. The laws of the address decoder: what a range lookup answers, that masking keeps alignment, and that an aligned access that
starts in RAM or BIOS ends in it.
-/

namespace Sys2Proof

/-- What `contains` answers. -/
theorem Range.contains_eq_some (r : Range) (a o : Word) :
    r.contains a = some o ↔ r.base ≤ a ∧ a - r.base < r.length ∧ o = a - r.base := by
  unfold Range.contains
  split
  · rename_i h
    simp [h.1, h.2, eq_comm]
  · rename_i h
    simp only [reduceCtorEq, false_iff]
    exact fun hc => h ⟨hc.1, hc.2.1⟩

/-- The offset lies in the range, and base plus offset is the address. -/
theorem Range.contains_bounds {r : Range} {a o : Word} (h : r.contains a = some o) :
    o.toNat < r.length.toNat ∧ a.toNat = r.base.toNat + o.toNat := by
  obtain ⟨h1, h2, rfl⟩ := (Range.contains_eq_some r a o).1 h
  rw [BitVec.le_def] at h1
  rw [BitVec.lt_def] at h2
  refine ⟨h2, ?_⟩
  rw [BitVec.toNat_sub_of_le (by rwa [BitVec.le_def])]
  omega

/-- A target is found only among those tried, and holds the address. -/
theorem lookup_some {ts : List Target} {a : Word} {t : Target} (h : lookup ts a = some t) :
    t ∈ ts ∧ ∃ o, t.range.contains a = some o := by
  unfold lookup at h
  exact ⟨List.mem_of_find?_eq_some h, Option.isSome_iff_exists.1 (by simpa using List.find?_some h)⟩

/-- Masking ands with one of three masks. -/
theorem maskRegion_cases (addr : Word) :
    maskRegion addr = addr ∨ maskRegion addr = addr &&& 0x7fffffff#32 ∨ maskRegion addr = addr &&& 0x1fffffff#32 := by
  unfold maskRegion regionMask
  split
  · exact .inr (.inl rfl)
  · split
    · exact .inr (.inr rfl)
    · exact .inl (BitVec.and_allOnes (x := addr))

/-- The two low bits survive masking (R71: "every mask has its low bits set"). -/
theorem maskRegion_mod (addr : Word) : (maskRegion addr).toNat % 4 = addr.toNat % 4 := by
  rcases maskRegion_cases addr with h | h | h
  · rw [h]
  · rw [h, BitVec.toNat_and, show (0x7fffffff#32).toNat = 2 ^ 31 - 1 by rfl, Nat.and_two_pow_sub_one_eq_mod]
    omega
  · rw [h, BitVec.toNat_and, show (0x1fffffff#32).toNat = 2 ^ 29 - 1 by rfl, Nat.and_two_pow_sub_one_eq_mod]
    omega

/-- "Masking keeps alignment" (R71). -/
theorem aligned_maskRegion (T : Width) (addr : Word) : aligned T (maskRegion addr) = aligned T addr := by
  have h := maskRegion_mod addr
  cases T <;> simp only [aligned, Width.bytes] <;> congr 1 <;> omega

/-- The two low bits of an offset are those of the address, for every range but none: all bases are multiples of 4. -/
theorem Target.base_mod (t : Target) : t.range.base.toNat % 4 = 0 := by cases t <;> rfl

/-- An aligned access that starts in RAM ends in it, and so for BIOS (R71). -/
theorem access_inside {t : Target} (ht : t = .ram ∨ t = .bios) {T : Width} {addr o : Word}
    (ha : aligned T addr = true) (h : t.range.contains (maskRegion addr) = some o) :
    o.toNat + T.bytes ≤ t.range.length.toNat := by
  rw [← aligned_maskRegion] at ha
  obtain ⟨h1, h2⟩ := Range.contains_bounds h
  have h3 := t.base_mod
  have h4 : t.range.length.toNat % 4 = 0 := by rcases ht with rfl | rfl <;> rfl
  cases T <;> simp only [aligned, Width.bytes, beq_iff_eq] at ha ⊢ <;> omega

namespace Machine

/-- An engine address is word-aligned and inside RAM with its whole word (R72). -/
theorem windowAddr_bounds (addr : Word) :
    (windowAddr addr).toNat % 4 = 0 ∧ (windowAddr addr).toNat + 4 ≤ Config.ramSize := by
  have h : (windowAddr addr).toNat = addr.toNat % 2 ^ 21 / 4 * 4 := by
    have h1 : (windowAddr addr) = ((addr.extractLsb' 2 19).setWidth 32) <<< 2 := by
      unfold windowAddr
      ext i hi
      have hm : (0x001ffffc#32).getLsbD i = (decide (2 ≤ i) && decide (i < 21)) := by
        revert i; decide
      simp
      rw [show (2097148#32)[i] = (0x001ffffc#32).getLsbD i from by simp [BitVec.getLsbD_eq_getElem, hi], hm]
      by_cases h2 : 2 ≤ i
      · have : ¬ i < 2 := by omega
        by_cases h3 : i < 21
        · simp [h2, h3, show i - 2 < 19 by omega, show 2 + (i - 2) = i by omega, BitVec.getLsbD_eq_getElem, hi]
          omega
        · simp [h3, show ¬ i - 2 < 19 by omega]
      · simp [h2]
        omega
    rw [h1]
    simp [BitVec.toNat_shiftLeft, BitVec.extractLsb'_toNat, Nat.shiftLeft_eq, Nat.shiftRight_eq_div_pow]
    omega
  rw [h]
  exact ⟨by omega, by simp only [Config.ramSize]; omega⟩

/-- Reducing twice is reducing once. -/
@[simp] theorem windowAddr_windowAddr (addr : Word) : windowAddr (windowAddr addr) = windowAddr addr := by
  unfold windowAddr
  rw [BitVec.and_assoc, BitVec.and_self]

end Machine

end Sys2Proof
end

