-- ==== Sys2Proof/Laws/State.lean ====
section
/-!
SUPPORT. The small lemmas of the state: what each update leaves in each field, and the channels by port. With them no proof
unfolds a record update.
-/

namespace Sys2Proof.Machine

@[simp] theorem Channels.get_set (cs : Channels) (p q : Port) (c : Channel) :
    (cs.set p c).get q = if q = p then c else cs.get q := by
  cases p <;> cases q <;> rfl

@[simp] theorem Channels.set_get (cs : Channels) (p : Port) : cs.set p (cs.get p) = cs := by
  cases p <;> rfl

@[simp] theorem Channels.set_set (cs : Channels) (p : Port) (c d : Channel) :
    (cs.set p c).set p d = cs.set p d := by
  cases p <;> rfl

/-- Two channel files with the same channels are the same. -/
theorem Channels.ext_get {cs ds : Channels} (h : ∀ p, cs.get p = ds.get p) : cs = ds := by
  cases cs; cases ds
  have h0 := h .mdecIn; have h1 := h .mdecOut; have h2 := h .gpu; have h3 := h .cdRom
  have h4 := h .spu; have h5 := h .pio; have h6 := h .otc
  simp only [Channels.get] at h0 h1 h2 h3 h4 h5 h6
  subst h0 h1 h2 h3 h4 h5 h6
  rfl

/-! ### `setEng` -/

@[simp] theorem State.setEng_ram (s : State) (e : Engine) : (s.setEng e).ram = s.ram := rfl
@[simp] theorem State.setEng_bios (s : State) (e : Engine) : (s.setEng e).bios = s.bios := rfl
@[simp] theorem State.setEng_cacheControl (s : State) (e : Engine) : (s.setEng e).cacheControl = s.cacheControl := rfl
@[simp] theorem State.setEng_dma (s : State) (e : Engine) : (s.setEng e).dma = s.dma := rfl
@[simp] theorem State.setEng_eng (s : State) (e : Engine) : (s.setEng e).eng = e := rfl
@[simp] theorem State.setEng_halt (s : State) (e : Engine) : (s.setEng e).halt = s.halt := rfl
@[simp] theorem State.setEng_gpuTrace (s : State) (e : Engine) : (s.setEng e).gpuTrace = s.gpuTrace := rfl
@[simp] theorem State.setEng_gpuFree (s : State) (e : Engine) : (s.setEng e).gpuFree = s.gpuFree := rfl
@[simp] theorem State.setEng_requests (s : State) (e : Engine) : (s.setEng e).requests = s.requests := rfl
@[simp] theorem State.setEng_reply (s : State) (e : Engine) : (s.setEng e).reply = s.reply := rfl

/-! ### `emit` -/

@[simp] theorem State.emit_ram (s : State) (e : GpuEvent) : (s.emit e).ram = s.ram := rfl
@[simp] theorem State.emit_bios (s : State) (e : GpuEvent) : (s.emit e).bios = s.bios := rfl
@[simp] theorem State.emit_cacheControl (s : State) (e : GpuEvent) : (s.emit e).cacheControl = s.cacheControl := rfl
@[simp] theorem State.emit_dma (s : State) (e : GpuEvent) : (s.emit e).dma = s.dma := rfl
@[simp] theorem State.emit_eng (s : State) (e : GpuEvent) : (s.emit e).eng = s.eng := rfl
@[simp] theorem State.emit_halt (s : State) (e : GpuEvent) : (s.emit e).halt = s.halt := rfl
@[simp] theorem State.emit_gpuTrace (s : State) (e : GpuEvent) : (s.emit e).gpuTrace = s.gpuTrace ++ [e] := rfl
@[simp] theorem State.emit_gpuFree (s : State) (e : GpuEvent) : (s.emit e).gpuFree = s.gpuFree := rfl
@[simp] theorem State.emit_requests (s : State) (e : GpuEvent) : (s.emit e).requests = s.requests := rfl
@[simp] theorem State.emit_reply (s : State) (e : GpuEvent) : (s.emit e).reply = s.reply := rfl

/-! ### `begin` -/

@[simp] theorem State.begin_ram (s : State) : s.begin.ram = s.ram := rfl
@[simp] theorem State.begin_bios (s : State) : s.begin.bios = s.bios := rfl
@[simp] theorem State.begin_cacheControl (s : State) : s.begin.cacheControl = s.cacheControl := rfl
@[simp] theorem State.begin_dma (s : State) : s.begin.dma = s.dma := rfl
@[simp] theorem State.begin_eng (s : State) : s.begin.eng = s.eng := rfl
@[simp] theorem State.begin_halt (s : State) : s.begin.halt = s.halt := rfl
@[simp] theorem State.begin_gpuTrace (s : State) : s.begin.gpuTrace = s.gpuTrace := rfl
@[simp] theorem State.begin_gpuFree (s : State) : s.begin.gpuFree = s.gpuFree := rfl
@[simp] theorem State.begin_requests (s : State) : s.begin.requests = s.requests := rfl
@[simp] theorem State.begin_reply (s : State) : s.begin.reply = none := rfl

/-! ### `returned` -/

@[simp] theorem State.returned_ram (s : State) (r : Reply) : (s.returned r).ram = s.ram := rfl
@[simp] theorem State.returned_bios (s : State) (r : Reply) : (s.returned r).bios = s.bios := rfl
@[simp] theorem State.returned_cacheControl (s : State) (r : Reply) : (s.returned r).cacheControl = s.cacheControl := rfl
@[simp] theorem State.returned_dma (s : State) (r : Reply) : (s.returned r).dma = s.dma := rfl
@[simp] theorem State.returned_eng (s : State) (r : Reply) : (s.returned r).eng = s.eng := rfl
@[simp] theorem State.returned_halt (s : State) (r : Reply) : (s.returned r).halt = s.halt := rfl
@[simp] theorem State.returned_gpuTrace (s : State) (r : Reply) : (s.returned r).gpuTrace = s.gpuTrace := rfl
@[simp] theorem State.returned_gpuFree (s : State) (r : Reply) : (s.returned r).gpuFree = s.gpuFree := rfl
@[simp] theorem State.returned_requests (s : State) (r : Reply) : (s.returned r).requests = s.requests := rfl
@[simp] theorem State.returned_reply (s : State) (r : Reply) : (s.returned r).reply = some r := rfl

/-! ### `ramWrite` -/

@[simp] theorem State.ramWrite_ram (s : State) (o : Word) (v : Value) : (s.ramWrite o v).ram = Memory.putBytes s.ram o.toNat (valueBytes v) := rfl
@[simp] theorem State.ramWrite_bios (s : State) (o : Word) (v : Value) : (s.ramWrite o v).bios = s.bios := rfl
@[simp] theorem State.ramWrite_cacheControl (s : State) (o : Word) (v : Value) : (s.ramWrite o v).cacheControl = s.cacheControl := rfl
@[simp] theorem State.ramWrite_dma (s : State) (o : Word) (v : Value) : (s.ramWrite o v).dma = s.dma := rfl
@[simp] theorem State.ramWrite_eng (s : State) (o : Word) (v : Value) : (s.ramWrite o v).eng = s.eng := rfl
@[simp] theorem State.ramWrite_halt (s : State) (o : Word) (v : Value) : (s.ramWrite o v).halt = s.halt := rfl
@[simp] theorem State.ramWrite_gpuTrace (s : State) (o : Word) (v : Value) : (s.ramWrite o v).gpuTrace = s.gpuTrace := rfl
@[simp] theorem State.ramWrite_gpuFree (s : State) (o : Word) (v : Value) : (s.ramWrite o v).gpuFree = s.gpuFree := rfl
@[simp] theorem State.ramWrite_requests (s : State) (o : Word) (v : Value) : (s.ramWrite o v).requests = s.requests := rfl
@[simp] theorem State.ramWrite_reply (s : State) (o : Word) (v : Value) : (s.ramWrite o v).reply = s.reply := rfl

/-! ### `setCh` -/

@[simp] theorem State.setCh_ram (s : State) (p : Port) (c : Channel) : (s.setCh p c).ram = s.ram := rfl
@[simp] theorem State.setCh_bios (s : State) (p : Port) (c : Channel) : (s.setCh p c).bios = s.bios := rfl
@[simp] theorem State.setCh_cacheControl (s : State) (p : Port) (c : Channel) : (s.setCh p c).cacheControl = s.cacheControl := rfl
@[simp] theorem State.setCh_dma (s : State) (p : Port) (c : Channel) : (s.setCh p c).dma = { s.dma with ch := s.dma.ch.set p c } := rfl
@[simp] theorem State.setCh_eng (s : State) (p : Port) (c : Channel) : (s.setCh p c).eng = s.eng := rfl
@[simp] theorem State.setCh_halt (s : State) (p : Port) (c : Channel) : (s.setCh p c).halt = s.halt := rfl
@[simp] theorem State.setCh_gpuTrace (s : State) (p : Port) (c : Channel) : (s.setCh p c).gpuTrace = s.gpuTrace := rfl
@[simp] theorem State.setCh_gpuFree (s : State) (p : Port) (c : Channel) : (s.setCh p c).gpuFree = s.gpuFree := rfl
@[simp] theorem State.setCh_requests (s : State) (p : Port) (c : Channel) : (s.setCh p c).requests = s.requests := rfl
@[simp] theorem State.setCh_reply (s : State) (p : Port) (c : Channel) : (s.setCh p c).reply = s.reply := rfl

/-! ### `setBase` -/

@[simp] theorem State.setBase_ram (s : State) (p : Port) (v : Word) : (s.setBase p v).ram = s.ram := rfl
@[simp] theorem State.setBase_bios (s : State) (p : Port) (v : Word) : (s.setBase p v).bios = s.bios := rfl
@[simp] theorem State.setBase_cacheControl (s : State) (p : Port) (v : Word) : (s.setBase p v).cacheControl = s.cacheControl := rfl
@[simp] theorem State.setBase_dma (s : State) (p : Port) (v : Word) : (s.setBase p v).dma = { s.dma with ch := s.dma.ch.set p { s.ch p with base := v } } := rfl
@[simp] theorem State.setBase_eng (s : State) (p : Port) (v : Word) : (s.setBase p v).eng = s.eng := rfl
@[simp] theorem State.setBase_halt (s : State) (p : Port) (v : Word) : (s.setBase p v).halt = s.halt := rfl
@[simp] theorem State.setBase_gpuTrace (s : State) (p : Port) (v : Word) : (s.setBase p v).gpuTrace = s.gpuTrace := rfl
@[simp] theorem State.setBase_gpuFree (s : State) (p : Port) (v : Word) : (s.setBase p v).gpuFree = s.gpuFree := rfl
@[simp] theorem State.setBase_requests (s : State) (p : Port) (v : Word) : (s.setBase p v).requests = s.requests := rfl
@[simp] theorem State.setBase_reply (s : State) (p : Port) (v : Word) : (s.setBase p v).reply = s.reply := rfl

/-! ### `setBlock` -/

@[simp] theorem State.setBlock_ram (s : State) (p : Port) (v : Word) : (s.setBlock p v).ram = s.ram := rfl
@[simp] theorem State.setBlock_bios (s : State) (p : Port) (v : Word) : (s.setBlock p v).bios = s.bios := rfl
@[simp] theorem State.setBlock_cacheControl (s : State) (p : Port) (v : Word) : (s.setBlock p v).cacheControl = s.cacheControl := rfl
@[simp] theorem State.setBlock_dma (s : State) (p : Port) (v : Word) : (s.setBlock p v).dma = { s.dma with ch := s.dma.ch.set p { s.ch p with blockSize := blockSizeOf v, blockCount := blockCountOf v } } := rfl
@[simp] theorem State.setBlock_eng (s : State) (p : Port) (v : Word) : (s.setBlock p v).eng = s.eng := rfl
@[simp] theorem State.setBlock_halt (s : State) (p : Port) (v : Word) : (s.setBlock p v).halt = s.halt := rfl
@[simp] theorem State.setBlock_gpuTrace (s : State) (p : Port) (v : Word) : (s.setBlock p v).gpuTrace = s.gpuTrace := rfl
@[simp] theorem State.setBlock_gpuFree (s : State) (p : Port) (v : Word) : (s.setBlock p v).gpuFree = s.gpuFree := rfl
@[simp] theorem State.setBlock_requests (s : State) (p : Port) (v : Word) : (s.setBlock p v).requests = s.requests := rfl
@[simp] theorem State.setBlock_reply (s : State) (p : Port) (v : Word) : (s.setBlock p v).reply = s.reply := rfl

/-! ### `setControl` -/

@[simp] theorem State.setControl_ram (s : State) (p : Port) (v : Word) : (s.setControl p v).ram = s.ram := rfl
@[simp] theorem State.setControl_bios (s : State) (p : Port) (v : Word) : (s.setControl p v).bios = s.bios := rfl
@[simp] theorem State.setControl_cacheControl (s : State) (p : Port) (v : Word) : (s.setControl p v).cacheControl = s.cacheControl := rfl
@[simp] theorem State.setControl_dma (s : State) (p : Port) (v : Word) : (s.setControl p v).dma = { s.dma with ch := s.dma.ch.set p { s.ch p with control := v } } := rfl
@[simp] theorem State.setControl_eng (s : State) (p : Port) (v : Word) : (s.setControl p v).eng = s.eng := rfl
@[simp] theorem State.setControl_halt (s : State) (p : Port) (v : Word) : (s.setControl p v).halt = s.halt := rfl
@[simp] theorem State.setControl_gpuTrace (s : State) (p : Port) (v : Word) : (s.setControl p v).gpuTrace = s.gpuTrace := rfl
@[simp] theorem State.setControl_gpuFree (s : State) (p : Port) (v : Word) : (s.setControl p v).gpuFree = s.gpuFree := rfl
@[simp] theorem State.setControl_requests (s : State) (p : Port) (v : Word) : (s.setControl p v).requests = s.requests := rfl
@[simp] theorem State.setControl_reply (s : State) (p : Port) (v : Word) : (s.setControl p v).reply = s.reply := rfl

/-! ### `setDmaControl` -/

@[simp] theorem State.setDmaControl_ram (s : State) (v : Word) : (s.setDmaControl v).ram = s.ram := rfl
@[simp] theorem State.setDmaControl_bios (s : State) (v : Word) : (s.setDmaControl v).bios = s.bios := rfl
@[simp] theorem State.setDmaControl_cacheControl (s : State) (v : Word) : (s.setDmaControl v).cacheControl = s.cacheControl := rfl
@[simp] theorem State.setDmaControl_dma (s : State) (v : Word) : (s.setDmaControl v).dma = { s.dma with control := v } := rfl
@[simp] theorem State.setDmaControl_eng (s : State) (v : Word) : (s.setDmaControl v).eng = s.eng := rfl
@[simp] theorem State.setDmaControl_halt (s : State) (v : Word) : (s.setDmaControl v).halt = s.halt := rfl
@[simp] theorem State.setDmaControl_gpuTrace (s : State) (v : Word) : (s.setDmaControl v).gpuTrace = s.gpuTrace := rfl
@[simp] theorem State.setDmaControl_gpuFree (s : State) (v : Word) : (s.setDmaControl v).gpuFree = s.gpuFree := rfl
@[simp] theorem State.setDmaControl_requests (s : State) (v : Word) : (s.setDmaControl v).requests = s.requests := rfl
@[simp] theorem State.setDmaControl_reply (s : State) (v : Word) : (s.setDmaControl v).reply = s.reply := rfl

/-! ### `setDmaInterrupt` -/

@[simp] theorem State.setDmaInterrupt_ram (s : State) (v : Word) : (s.setDmaInterrupt v).ram = s.ram := rfl
@[simp] theorem State.setDmaInterrupt_bios (s : State) (v : Word) : (s.setDmaInterrupt v).bios = s.bios := rfl
@[simp] theorem State.setDmaInterrupt_cacheControl (s : State) (v : Word) : (s.setDmaInterrupt v).cacheControl = s.cacheControl := rfl
@[simp] theorem State.setDmaInterrupt_dma (s : State) (v : Word) : (s.setDmaInterrupt v).dma = { s.dma with interrupt := v } := rfl
@[simp] theorem State.setDmaInterrupt_eng (s : State) (v : Word) : (s.setDmaInterrupt v).eng = s.eng := rfl
@[simp] theorem State.setDmaInterrupt_halt (s : State) (v : Word) : (s.setDmaInterrupt v).halt = s.halt := rfl
@[simp] theorem State.setDmaInterrupt_gpuTrace (s : State) (v : Word) : (s.setDmaInterrupt v).gpuTrace = s.gpuTrace := rfl
@[simp] theorem State.setDmaInterrupt_gpuFree (s : State) (v : Word) : (s.setDmaInterrupt v).gpuFree = s.gpuFree := rfl
@[simp] theorem State.setDmaInterrupt_requests (s : State) (v : Word) : (s.setDmaInterrupt v).requests = s.requests := rfl
@[simp] theorem State.setDmaInterrupt_reply (s : State) (v : Word) : (s.setDmaInterrupt v).reply = s.reply := rfl

/-! ### `setCacheControl` -/

@[simp] theorem State.setCacheControl_ram (s : State) (v : Word) : (s.setCacheControl v).ram = s.ram := rfl
@[simp] theorem State.setCacheControl_bios (s : State) (v : Word) : (s.setCacheControl v).bios = s.bios := rfl
@[simp] theorem State.setCacheControl_cacheControl (s : State) (v : Word) : (s.setCacheControl v).cacheControl = v := rfl
@[simp] theorem State.setCacheControl_dma (s : State) (v : Word) : (s.setCacheControl v).dma = s.dma := rfl
@[simp] theorem State.setCacheControl_eng (s : State) (v : Word) : (s.setCacheControl v).eng = s.eng := rfl
@[simp] theorem State.setCacheControl_halt (s : State) (v : Word) : (s.setCacheControl v).halt = s.halt := rfl
@[simp] theorem State.setCacheControl_gpuTrace (s : State) (v : Word) : (s.setCacheControl v).gpuTrace = s.gpuTrace := rfl
@[simp] theorem State.setCacheControl_gpuFree (s : State) (v : Word) : (s.setCacheControl v).gpuFree = s.gpuFree := rfl
@[simp] theorem State.setCacheControl_requests (s : State) (v : Word) : (s.setCacheControl v).requests = s.requests := rfl
@[simp] theorem State.setCacheControl_reply (s : State) (v : Word) : (s.setCacheControl v).reply = s.reply := rfl

/-! ### The channel of a port after each update -/

@[simp] theorem State.setCh_ch (s : State) (p q : Port) (c : Channel) :
    (s.setCh p c).ch q = if q = p then c else s.ch q := by
  simp [State.ch]

@[simp] theorem State.setBase_ch (s : State) (p q : Port) (v : Word) :
    (s.setBase p v).ch q = if q = p then { s.ch p with base := v } else s.ch q := by
  simp [State.setBase]

@[simp] theorem State.setBlock_ch (s : State) (p q : Port) (v : Word) :
    (s.setBlock p v).ch q =
      if q = p then { s.ch p with blockSize := blockSizeOf v, blockCount := blockCountOf v } else s.ch q := by
  simp [State.setBlock]

@[simp] theorem State.setControl_ch (s : State) (p q : Port) (v : Word) :
    (s.setControl p v).ch q = if q = p then { s.ch p with control := v } else s.ch q := by
  simp [State.setControl]

@[simp] theorem State.setEng_ch (s : State) (e : Engine) (p : Port) : (s.setEng e).ch p = s.ch p := rfl
@[simp] theorem State.emit_ch (s : State) (e : GpuEvent) (p : Port) : (s.emit e).ch p = s.ch p := rfl
@[simp] theorem State.begin_ch (s : State) (p : Port) : s.begin.ch p = s.ch p := rfl
@[simp] theorem State.returned_ch (s : State) (r : Reply) (p : Port) : (s.returned r).ch p = s.ch p := rfl
@[simp] theorem State.ramWrite_ch (s : State) (o : Word) (v : Value) (p : Port) : (s.ramWrite o v).ch p = s.ch p := rfl
@[simp] theorem State.setDmaControl_ch (s : State) (v : Word) (p : Port) : (s.setDmaControl v).ch p = s.ch p := rfl
@[simp] theorem State.setDmaInterrupt_ch (s : State) (v : Word) (p : Port) : (s.setDmaInterrupt v).ch p = s.ch p := rfl
@[simp] theorem State.setCacheControl_ch (s : State) (v : Word) (p : Port) : (s.setCacheControl v).ch p = s.ch p := rfl

/-! ### Memory reads after updates that leave the memory -/

@[simp] theorem State.setEng_ramWord (s : State) (e : Engine) (x : Word) : (s.setEng e).ramWord x = s.ramWord x := rfl
@[simp] theorem State.setEng_ramByte (s : State) (e : Engine) (x : Nat) : (s.setEng e).ramByte x = s.ramByte x := rfl
@[simp] theorem State.setEng_biosByte (s : State) (e : Engine) (x : Nat) : (s.setEng e).biosByte x = s.biosByte x := rfl
@[simp] theorem State.emit_ramWord (s : State) (e : GpuEvent) (x : Word) : (s.emit e).ramWord x = s.ramWord x := rfl
@[simp] theorem State.emit_ramByte (s : State) (e : GpuEvent) (x : Nat) : (s.emit e).ramByte x = s.ramByte x := rfl
@[simp] theorem State.emit_biosByte (s : State) (e : GpuEvent) (x : Nat) : (s.emit e).biosByte x = s.biosByte x := rfl
@[simp] theorem State.begin_ramWord (s : State) (x : Word) : s.begin.ramWord x = s.ramWord x := rfl
@[simp] theorem State.begin_ramByte (s : State) (x : Nat) : s.begin.ramByte x = s.ramByte x := rfl
@[simp] theorem State.begin_biosByte (s : State) (x : Nat) : s.begin.biosByte x = s.biosByte x := rfl
@[simp] theorem State.returned_ramWord (s : State) (r : Reply) (x : Word) : (s.returned r).ramWord x = s.ramWord x := rfl
@[simp] theorem State.returned_ramByte (s : State) (r : Reply) (x : Nat) : (s.returned r).ramByte x = s.ramByte x := rfl
@[simp] theorem State.returned_biosByte (s : State) (r : Reply) (x : Nat) : (s.returned r).biosByte x = s.biosByte x := rfl
@[simp] theorem State.ramWrite_biosByte (s : State) (o : Word) (v : Value) (x : Nat) : (s.ramWrite o v).biosByte x = s.biosByte x := rfl
@[simp] theorem State.setCh_ramWord (s : State) (p : Port) (c : Channel) (x : Word) : (s.setCh p c).ramWord x = s.ramWord x := rfl
@[simp] theorem State.setCh_ramByte (s : State) (p : Port) (c : Channel) (x : Nat) : (s.setCh p c).ramByte x = s.ramByte x := rfl
@[simp] theorem State.setCh_biosByte (s : State) (p : Port) (c : Channel) (x : Nat) : (s.setCh p c).biosByte x = s.biosByte x := rfl
@[simp] theorem State.setBase_ramWord (s : State) (p : Port) (v : Word) (x : Word) : (s.setBase p v).ramWord x = s.ramWord x := rfl
@[simp] theorem State.setBase_ramByte (s : State) (p : Port) (v : Word) (x : Nat) : (s.setBase p v).ramByte x = s.ramByte x := rfl
@[simp] theorem State.setBase_biosByte (s : State) (p : Port) (v : Word) (x : Nat) : (s.setBase p v).biosByte x = s.biosByte x := rfl
@[simp] theorem State.setBlock_ramWord (s : State) (p : Port) (v : Word) (x : Word) : (s.setBlock p v).ramWord x = s.ramWord x := rfl
@[simp] theorem State.setBlock_ramByte (s : State) (p : Port) (v : Word) (x : Nat) : (s.setBlock p v).ramByte x = s.ramByte x := rfl
@[simp] theorem State.setBlock_biosByte (s : State) (p : Port) (v : Word) (x : Nat) : (s.setBlock p v).biosByte x = s.biosByte x := rfl
@[simp] theorem State.setControl_ramWord (s : State) (p : Port) (v : Word) (x : Word) : (s.setControl p v).ramWord x = s.ramWord x := rfl
@[simp] theorem State.setControl_ramByte (s : State) (p : Port) (v : Word) (x : Nat) : (s.setControl p v).ramByte x = s.ramByte x := rfl
@[simp] theorem State.setControl_biosByte (s : State) (p : Port) (v : Word) (x : Nat) : (s.setControl p v).biosByte x = s.biosByte x := rfl
@[simp] theorem State.setDmaControl_ramWord (s : State) (v : Word) (x : Word) : (s.setDmaControl v).ramWord x = s.ramWord x := rfl
@[simp] theorem State.setDmaControl_ramByte (s : State) (v : Word) (x : Nat) : (s.setDmaControl v).ramByte x = s.ramByte x := rfl
@[simp] theorem State.setDmaControl_biosByte (s : State) (v : Word) (x : Nat) : (s.setDmaControl v).biosByte x = s.biosByte x := rfl
@[simp] theorem State.setDmaInterrupt_ramWord (s : State) (v : Word) (x : Word) : (s.setDmaInterrupt v).ramWord x = s.ramWord x := rfl
@[simp] theorem State.setDmaInterrupt_ramByte (s : State) (v : Word) (x : Nat) : (s.setDmaInterrupt v).ramByte x = s.ramByte x := rfl
@[simp] theorem State.setDmaInterrupt_biosByte (s : State) (v : Word) (x : Nat) : (s.setDmaInterrupt v).biosByte x = s.biosByte x := rfl
@[simp] theorem State.setCacheControl_ramWord (s : State) (v : Word) (x : Word) : (s.setCacheControl v).ramWord x = s.ramWord x := rfl
@[simp] theorem State.setCacheControl_ramByte (s : State) (v : Word) (x : Nat) : (s.setCacheControl v).ramByte x = s.ramByte x := rfl
@[simp] theorem State.setCacheControl_biosByte (s : State) (v : Word) (x : Nat) : (s.setCacheControl v).biosByte x = s.biosByte x := rfl

/-! ### Whether the block is busy -/

/-- Not busy is ready: not halted and the engine idle. -/
theorem State.busy_eq_false_iff (s : State) : s.busy = false ↔ s.halt = none ∧ s.eng = .idle := by
  cases h : s.halt <;> simp [State.busy, h]

@[simp] theorem State.begin_begin (s : State) : s.begin.begin = s.begin := rfl

@[simp] theorem State.begin_busy (s : State) : s.begin.busy = s.busy := rfl

@[simp] theorem State.begin_active (s : State) (p : Port) : s.begin.active p = s.active p := rfl

@[simp] theorem State.begin_returned (s : State) (r : Reply) : s.begin.returned r = s.returned r := rfl

end Sys2Proof.Machine
end

