-- ==== Sys2Proof/Laws/Memory.lean ====
section
/-!
SUPPORT. The laws of the byte arrays: what a byte reads after a write, and that every write keeps the canonical form.
-/

namespace Sys2Proof.Machine

/-! ### One byte -/

theorem Memory.get?_put (m : Memory) (x y : Nat) (v : Byte) :
    Memory.get? (Memory.put m x v) y = if y = x then some v else Memory.get? m y := by
  induction m with
  | nil => by_cases h : y = x <;> simp_all [Memory.put, Memory.get?, eq_comm]
  | cons c m ih =>
    obtain ⟨a, b⟩ := c
    unfold Memory.put
    split
    · by_cases h : y = x
      · simp [Memory.get?, h]
      · simp [Memory.get?, h, Ne.symm h]
    · split
      · rename_i h
        subst h
        by_cases h : y = x
        · simp [Memory.get?, h]
        · simp [Memory.get?, h, Ne.symm h]
      · rename_i h
        by_cases h' : a = y
        · subst h'
          simp [Memory.get?, Ne.symm h]
        · simp [Memory.get?, h', ih]

/-- A byte outside the bytes a write stores reads as before. -/
theorem Memory.get?_putBytes_of_outside (vs : List Byte) (m : Memory) (x y : Nat)
    (h : y < x ∨ x + vs.length ≤ y) : Memory.get? (Memory.putBytes m x vs) y = Memory.get? m y := by
  induction vs generalizing m x with
  | nil => rfl
  | cons v vs ih =>
    have hy : y ≠ x := by simp at h; omega
    rw [Memory.putBytes, ih _ _ (by simp at h; omega), Memory.get?_put, if_neg hy]

/-- Each stored byte reads back. -/
theorem Memory.get?_putBytes_of_inside (vs : List Byte) (m : Memory) (x i : Nat) (h : i < vs.length) :
    Memory.get? (Memory.putBytes m x vs) (x + i) = some vs[i] := by
  induction vs generalizing m x i with
  | nil => simp at h
  | cons v vs ih =>
    cases i with
    | zero =>
      rw [Memory.putBytes, Memory.get?_putBytes_of_outside _ _ _ _ (by omega), Memory.get?_put]
      simp
    | succ i =>
      have := ih (Memory.put m x v) (x + 1) i (by simpa using h)
      rw [Memory.putBytes, show x + (i + 1) = x + 1 + i by omega, this]
      simp

/-! ### The canonical form -/

theorem Memory.risesFrom_put (m : Memory) (lo x : Nat) (v : Byte) (hm : Memory.risesFrom lo m = true)
    (hx : lo ≤ x) : Memory.risesFrom lo (Memory.put m x v) = true := by
  induction m generalizing lo with
  | nil => simp [Memory.put, Memory.risesFrom, hx]
  | cons c m ih =>
    obtain ⟨a, b⟩ := c
    simp only [Memory.risesFrom, Bool.and_eq_true, decide_eq_true_eq] at hm
    unfold Memory.put
    split
    · simp only [Memory.risesFrom, Bool.and_eq_true, decide_eq_true_eq]
      exact ⟨hx, by omega, hm.2⟩
    · split
      · rename_i h
        subst h
        simp only [Memory.risesFrom, Bool.and_eq_true, decide_eq_true_eq]
        exact ⟨hx, hm.2⟩
      · simp only [Memory.risesFrom, Bool.and_eq_true, decide_eq_true_eq]
        exact ⟨hm.1, ih (a + 1) hm.2 (by omega)⟩

theorem Memory.all_lt_put (m : Memory) (size x : Nat) (v : Byte)
    (hm : (m.all fun c => decide (c.1 < size)) = true) (hx : x < size) :
    ((Memory.put m x v).all fun c => decide (c.1 < size)) = true := by
  induction m with
  | nil => simp [Memory.put, hx]
  | cons c m ih =>
    obtain ⟨a, b⟩ := c
    simp only [List.all_cons, Bool.and_eq_true] at hm
    unfold Memory.put
    split
    · simp only [List.all_cons, Bool.and_eq_true, decide_eq_true_eq] at hm ⊢
      exact ⟨hx, hm⟩
    · split
      · simp only [List.all_cons, Bool.and_eq_true, decide_eq_true_eq] at hm ⊢
        exact ⟨hx, hm.2⟩
      · simp only [List.all_cons, Bool.and_eq_true] at hm ⊢
        exact ⟨hm.1, ih hm.2⟩

/-- A byte written inside the array keeps the canonical form. -/
theorem Memory.wf_put (m : Memory) (size x : Nat) (v : Byte) (hm : Memory.wf m size = true) (hx : x < size) :
    Memory.wf (Memory.put m x v) size = true := by
  simp only [Memory.wf, Bool.and_eq_true] at hm ⊢
  exact ⟨Memory.risesFrom_put m 0 x v hm.1 (Nat.zero_le x), Memory.all_lt_put m size x v hm.2 hx⟩

/-- Bytes written inside the array keep the canonical form. -/
theorem Memory.wf_putBytes (vs : List Byte) (m : Memory) (size x : Nat) (hm : Memory.wf m size = true)
    (hx : x + vs.length ≤ size) : Memory.wf (Memory.putBytes m x vs) size = true := by
  induction vs generalizing m x with
  | nil => exact hm
  | cons v vs ih =>
    simp only [List.length_cons] at hx
    exact ih _ _ (Memory.wf_put m size x v hm (by omega)) (by omega)

/-! ### Canonical memories with the same bytes are the same data -/

/-- A memory that rises from a bound lists nothing below it. -/
theorem Memory.get?_of_lt (m : Memory) (lo x : Nat) (hm : Memory.risesFrom lo m = true) (hx : x < lo) :
    Memory.get? m x = none := by
  induction m generalizing lo with
  | nil => rfl
  | cons c m ih =>
    obtain ⟨a, b⟩ := c
    simp only [Memory.risesFrom, Bool.and_eq_true, decide_eq_true_eq] at hm
    rw [Memory.get?, if_neg (by omega)]
    exact ih (a + 1) hm.2 (by omega)

/-- Two rising memories that list the same bytes are equal: equal memories are equal data. -/
theorem Memory.eq_of_get? (m n : Memory) (lo : Nat) (hm : Memory.risesFrom lo m = true)
    (hn : Memory.risesFrom lo n = true) (h : ∀ x, Memory.get? m x = Memory.get? n x) : m = n := by
  induction m generalizing lo n with
  | nil =>
    cases n with
    | nil => rfl
    | cons c n =>
      have := h c.1
      simp [Memory.get?] at this
  | cons c m ih =>
    obtain ⟨a, b⟩ := c
    simp only [Memory.risesFrom, Bool.and_eq_true, decide_eq_true_eq] at hm
    cases n with
    | nil =>
      have := h a
      simp [Memory.get?] at this
    | cons d n =>
      obtain ⟨a', b'⟩ := d
      simp only [Memory.risesFrom, Bool.and_eq_true, decide_eq_true_eq] at hn
      have haa : a = a' := by
        rcases Nat.lt_trichotomy a a' with hlt | heq | hlt
        · have := h a
          rw [Memory.get?, if_pos rfl, Memory.get?, if_neg (by omega), Memory.get?_of_lt n _ a hn.2 (by omega)] at this
          simp at this
        · exact heq
        · have := h a'
          rw [Memory.get?, if_neg (by omega), Memory.get?_of_lt m _ a' hm.2 (by omega), Memory.get?, if_pos rfl] at this
          simp at this
      subst haa
      have hb := h a
      simp only [Memory.get?, if_true, Option.some.injEq] at hb
      subst hb
      have hmn : m = n := by
        refine ih n (a + 1) hm.2 hn.2 fun x => ?_
        by_cases hx : a = x
        · subst hx
          rw [Memory.get?_of_lt m _ a hm.2 (by omega), Memory.get?_of_lt n _ a hn.2 (by omega)]
        · have := h x
          rwa [Memory.get?, if_neg hx, Memory.get?, if_neg hx] at this
      rw [hmn]

/-! ### The state's memories -/

/-- A value is as many bytes as its width says. -/
@[simp] theorem valueBytes_length (v : Value) : (valueBytes v).length = v.width.bytes := by
  cases v <;> rfl

/-- A RAM byte outside a stored value reads as before. -/
theorem State.ramWrite_ramByte_of_outside (s : State) (o : Word) (v : Value) (y : Nat)
    (h : y < o.toNat ∨ o.toNat + v.width.bytes ≤ y) : (s.ramWrite o v).ramByte y = s.ramByte y := by
  simp only [State.ramByte, State.ramWrite_ram]
  rw [Memory.get?_putBytes_of_outside _ _ _ _ (by simpa using h)]

/-- Each byte of a stored value reads back. -/
theorem State.ramWrite_ramByte_of_inside (s : State) (o : Word) (v : Value) (i : Nat)
    (h : i < (valueBytes v).length) : (s.ramWrite o v).ramByte (o.toNat + i) = (valueBytes v)[i] := by
  simp only [State.ramByte, State.ramWrite_ram]
  rw [Memory.get?_putBytes_of_inside _ _ _ _ h]
  rfl

/-- A stored value inside RAM keeps the canonical form. -/
theorem State.ramWrite_wf (s : State) (o : Word) (v : Value) (hm : Memory.wf s.ram Config.ramSize = true)
    (h : o.toNat + v.width.bytes ≤ Config.ramSize) : Memory.wf (s.ramWrite o v).ram Config.ramSize = true :=
  Memory.wf_putBytes _ _ _ _ hm (by simpa using h)

/-- A word stored in RAM reads back. -/
theorem State.ramWrite_ramWord (s : State) (o w : Word) : (s.ramWrite o (.word w)).ramWord o = w := by
  have hb (i : Nat) (h : i < 4) := State.ramWrite_ramByte_of_inside s o (.word w) i (by simpa [valueBytes] using h)
  have h0 := hb 0 (by omega); have h1 := hb 1 (by omega); have h2 := hb 2 (by omega); have h3 := hb 3 (by omega)
  simp only [Nat.add_zero] at h0
  simp only [State.ramWord, State.ramRead, memRead, asU32, wordOfBytes, h0, h1, h2, h3, valueBytes]
  ext i hi
  simp
  grind

/-- A RAM word apart from a stored word reads as before. -/
theorem State.ramWrite_ramWord_of_apart (s : State) (o x w : Word)
    (h : x.toNat + 4 ≤ o.toNat ∨ o.toNat + 4 ≤ x.toNat) : (s.ramWrite o (.word w)).ramWord x = s.ramWord x := by
  have hb (i : Nat) (hi : i < 4) := State.ramWrite_ramByte_of_outside s o (.word w) (x.toNat + i)
    (by simp only [Value.width, Width.bytes]; omega)
  have h0 := hb 0 (by omega); have h1 := hb 1 (by omega); have h2 := hb 2 (by omega); have h3 := hb 3 (by omega)
  simp only [Nat.add_zero] at h0
  simp only [State.ramWord, State.ramRead, memRead, h0, h1, h2, h3]

end Sys2Proof.Machine
end

