-- ==== Sys2Proof/Laws/Ops.lean ====
section
/-!
SUPPORT. One lemma per shared operation: exactly when it answers a next state and which, and what each front comes down to when an
operation is accepted.
-/

namespace Sys2Proof.Machine

/-! ### How an operation ends -/

theorem returns_next_iff (r : Reply) (s t : State) : returns r s = .next t ↔ t = s.returned r := by
  simp [returns, eq_comm]

theorem loads_next_iff (v : Value) (s t : State) : loads v s = .next t ↔ t = s.returned (.loaded v) :=
  returns_next_iff _ _ _

theorem stores_next_iff (s t : State) : stores s = .next t ↔ t = s.returned .stored :=
  returns_next_iff _ _ _

theorem raise_next_iff (c : Cause) (s t : State) : raise c s = .next t ↔ t = { s with halt := some c } := by
  simp [raise, eq_comm]

theorem done_next_iff (p : Port) (s t : State) :
    done p s = .next t ↔
      t = ((s.setControl p (doneControl (s.ch p).control)).setEng .idle).returned .stored :=
  stores_next_iff _ _

/-! ### The fronts: when they answer a next state -/

theorem busFront_next_iff (T : Width) (addr : Word) (t : Target) (s u : State) (k : Word → State → Out) :
    busFront T addr t s k = .next u ↔
      s.busy = false ∧ aligned T addr = true ∧
        ∃ o, t.range.contains (maskRegion addr) = some o ∧ k o s.begin = .next u := by
  unfold busFront
  cases s.busy <;> cases aligned T addr <;> cases t.range.contains (maskRegion addr) <;> simp

theorem unmappedFront_next_iff (T : Width) (addr : Word) (t : Option Target) (s u : State) (k : State → Out) :
    unmappedFront T addr t s k = .next u ↔
      s.busy = false ∧ aligned T addr = true ∧ t = none ∧ k s.begin = .next u := by
  unfold unmappedFront
  cases s.busy <;> cases aligned T addr <;> cases t <;> simp

theorem regFront_next_iff (s u : State) (k : State → Out) :
    regFront s k = .next u ↔ s.busy = false ∧ k s.begin = .next u := by
  unfold regFront
  cases s.busy <;> simp

theorem reservedFront_next_iff (off : BitVec 7) (s u : State) (k : State → Out) :
    reservedFront off s k = .next u ↔
      s.busy = false ∧ alignedOffset off = true ∧ regSel off = .reserved ∧ k s.begin = .next u := by
  unfold reservedFront
  rw [regFront_next_iff]
  cases alignedOffset off <;> by_cases h : regSel off = .reserved <;> simp [h]

theorem engFront_next_iff (s u : State) (k : Out) : engFront s k = .next u ↔ s.halt = none ∧ k = .next u := by
  unfold engFront
  cases s.halt <;> simp

/-! ### The fronts of an accepted operation -/

theorem busFront_of_ready {T : Width} {addr o : Word} {t : Target} {s : State} (k : Word → State → Out)
    (hs : s.busy = false) (ha : aligned T addr = true) (ho : t.range.contains (maskRegion addr) = some o) :
    busFront T addr t s k = k o s.begin := by
  simp [busFront, hs, ha, ho]

theorem unmappedFront_of_ready {T : Width} {addr : Word} {s : State} (k : State → Out) (hs : s.busy = false)
    (ha : aligned T addr = true) : unmappedFront T addr none s k = k s.begin := by
  simp [unmappedFront, hs, ha]

theorem regFront_of_ready {s : State} (k : State → Out) (hs : s.busy = false) : regFront s k = k s.begin := by
  simp [regFront, hs]

theorem reservedFront_of_ready {off : BitVec 7} {s : State} (k : State → Out) (hs : s.busy = false)
    (ha : alignedOffset off = true) (hr : regSel off = .reserved) : reservedFront off s k = k s.begin := by
  simp [reservedFront, regFront, hs, ha, hr]

theorem engFront_of_running {s : State} (k : Out) (hs : s.halt = none) : engFront s k = k := by
  simp [engFront, hs]

/-! ### The derived fields of a control word -/

/-- A sync field other than 3 names a mode. -/
theorem syncOf_eq_none_iff (ctl : Word) : syncOf ctl = none ↔ syncField ctl = 3#2 := by
  unfold syncOf
  generalize syncField ctl = f
  revert f
  decide

/-- `active` as the formula of R32. -/
theorem activeOf_eq_true_iff (ctl : Word) :
    activeOf ctl = true ↔
      enableOf ctl = true ∧ syncField ctl ≠ 3#2 ∧ (syncOf ctl = some .manual → triggerOf ctl = true) := by
  have h := syncOf_eq_none_iff ctl
  unfold activeOf
  cases hs : syncOf ctl with
  | none => simp_all
  | some m => cases m <;> simp_all

/-- Done clears ENABLE (R204). -/
@[simp] theorem enableOf_doneControl (ctl : Word) : enableOf (doneControl ctl) = false := by
  simp [enableOf, doneControl, Config.chcrEnableBit, Config.chcrTriggerBit]

/-- Done clears TRIGGER (R204). -/
@[simp] theorem triggerOf_doneControl (ctl : Word) : triggerOf (doneControl ctl) = false := by
  simp [triggerOf, doneControl, Config.chcrEnableBit, Config.chcrTriggerBit]

/-- After done a channel is not active (R204). -/
@[simp] theorem activeOf_doneControl (ctl : Word) : activeOf (doneControl ctl) = false := by
  simp [activeOf]

/-- Done keeps the sync field (R204). -/
@[simp] theorem syncField_doneControl (ctl : Word) : syncField (doneControl ctl) = syncField ctl := by
  unfold syncField doneControl
  ext i hi
  have : i = 0 ∨ i = 1 := by omega
  rcases this with rfl | rfl <;> simp [Config.chcrSyncLsb, Config.chcrEnableBit, Config.chcrTriggerBit]

/-- A size is known exactly outside linked-list mode and the reserved code (R33). -/
theorem transferSize_eq_none_iff (c : Channel) :
    transferSize c = none ↔ syncOf c.control = some .linkedList ∨ syncOf c.control = none := by
  unfold transferSize
  cases syncOf c.control with
  | none => simp
  | some m => cases m <;> simp

end Sys2Proof.Machine
end

