-- ==== Sys2Proof/Laws/Effects.lean ====
section
/-!
SUPPORT. What one step can do, said once: every next state of a step is one of the effects below. Invariants are proved by cases
on the effect, never by unfolding the step.
-/

namespace Sys2Proof.Machine

/-! ### The channel the engine runs for -/

@[simp] theorem Engine.port?_idle : Engine.idle.port? = none := rfl
@[simp] theorem Engine.port?_block (p : Port) (addr n : Word) : (Engine.block p addr n).port? = some p := rfl
@[simp] theorem Engine.port?_listHeader (c : Word) : (Engine.listHeader c).port? = some .gpu := rfl
@[simp] theorem Engine.port?_listPayload (a : Word) (l : Byte) (h : Word) : (Engine.listPayload a l h).port? = some .gpu := rfl

/-- The engine runs for a channel exactly when it is not idle. -/
theorem Engine.port?_eq_none_iff (e : Engine) : e.port? = none ↔ e = .idle := by cases e <;> simp

/-- A write of one of channel `p`'s registers took state `s` to `u`, no transfer started yet (R190, R191, R192). -/
inductive ChannelWrite (s : State) (p : Port) : State → Prop
  | base (val : Word) : ChannelWrite s p (s.setBase p val)
  | block (val : Word) : ChannelWrite s p (s.setBlock p val)
  | control (val : Word) (h : syncField val ≠ 3#2) : ChannelWrite s p (s.setControl p val)

/-- What an operation or an engine step that answers a next state did. -/
inductive Effect (s : State) : State → Prop
  /-- An operation returned and changed nothing else. -/
  | returned (hs : s.busy = false) (r : Reply) : Effect s (s.returned r)
  /-- An operation raised a fatal condition, having changed nothing else. -/
  | raised (hs : s.busy = false) (c : Cause) : Effect s { s.begin with halt := some c }
  | storeRam (hs : s.busy = false) (o : Word) (v : Value) (ho : o.toNat + v.width.bytes ≤ Config.ramSize) :
      Effect s ((s.begin.ramWrite o v).returned .stored)
  | loadGpu (hs : s.busy = false) (o : Word) (T : Width) (v : Value) :
      Effect s ({ s.begin.emit (.gpuLoad o T) with gpuFree := s.gpuFree + 1 }.returned (.loaded v))
  | storeGpu (hs : s.busy = false) (o : Word) (v : Value) :
      Effect s ((s.begin.emit (.gpuStore o v)).returned .stored)
  | storeCacheCtl (hs : s.busy = false) (val : Word) : Effect s ((s.begin.setCacheControl val).returned .stored)
  | wrDmaControl (hs : s.busy = false) (val : Word) : Effect s ((s.begin.setDmaControl val).returned .stored)
  | wrDmaInterrupt (hs : s.busy = false) (val : Word) : Effect s ((s.begin.setDmaInterrupt val).returned .stored)
  /-- A channel register was written and the channel is not active. -/
  | wrChannel (hs : s.busy = false) (p : Port) (u : State) (hu : ChannelWrite s.begin p u) (ha : u.active p = false) :
      Effect s (u.returned .stored)
  /-- A channel register was written and a block transfer started (R221). -/
  | startBlock (hs : s.busy = false) (p : Port) (u : State) (hu : ChannelWrite s.begin p u) (ha : u.active p = true)
      (hm : syncOf (u.ch p).control = some .manual ∨ syncOf (u.ch p).control = some .request) (n : Word) :
      Effect s (u.setEng (.block p (u.ch p).base n))
  /-- A channel register was written and a list transfer started (R253). -/
  | startList (hs : s.busy = false) (u : State) (hu : ChannelWrite s.begin .gpu u) (ha : u.active .gpu = true)
      (hm : syncOf (u.ch .gpu).control = some .linkedList) (hd : directionOf (u.ch .gpu).control = .fromRam) :
      Effect s (u.setEng (.listHeader (windowAddr (u.ch .gpu).base)))
  /-- A channel register was written and the start was fatal (R251, R252). -/
  | startFatal (hs : s.busy = false) (p : Port) (u : State) (hu : ChannelWrite s.begin p u) (ha : u.active p = true)
      (c : Cause) : Effect s { u with halt := some c }
  | blockGpuWord (hh : s.halt = none) (addr n : Word) (he : s.eng = .block .gpu addr n) (w a n' : Word) :
      Effect s ((s.emit (.gp0 w)).setEng (.block .gpu a n'))
  | blockOtcWord (hh : s.halt = none) (addr n : Word) (he : s.eng = .block .otc addr n) (w a n' : Word) :
      Effect s ((s.ramWrite (windowAddr addr) (.word w)).setEng (.block .otc a n'))
  | blockFatal (hh : s.halt = none) (p : Port) (addr n : Word) (he : s.eng = .block p addr n) (c : Cause) :
      Effect s { s with halt := some c }
  | blockDone (hh : s.halt = none) (p : Port) (addr : Word) (he : s.eng = .block p addr 0#32) :
      Effect s (((s.setControl p (doneControl (s.ch p).control)).setEng .idle).returned .stored)
  | listHeader (hh : s.halt = none) (cursor : Word) (he : s.eng = .listHeader cursor) (left : Byte) (header : Word) :
      Effect s (s.setEng (.listPayload cursor left header))
  | listWord (hh : s.halt = none) (addr header : Word) (left : Byte) (he : s.eng = .listPayload addr left header)
      (w a : Word) (left' : Byte) : Effect s ((s.emit (.gp0 w)).setEng (.listPayload (windowAddr a) left' header))
  | listNext (hh : s.halt = none) (addr header : Word) (left : Byte) (he : s.eng = .listPayload addr left header)
      (a : Word) : Effect s (s.setEng (.listHeader (windowAddr a)))
  | listEnd (hh : s.halt = none) (addr header : Word) (left : Byte) (he : s.eng = .listPayload addr left header) :
      Effect s (((s.setControl .gpu (doneControl (s.ch .gpu).control)).setEng .idle).returned .stored)

/-! ### The register rows -/

theorem ChannelWrite.busy {s : State} {p : Port} {u : State} (h : ChannelWrite s p u) : u.busy = s.busy := by
  cases h <;> rfl

/-- A channel write's end: it returns, or starts a transfer, or its start is fatal. -/
theorem afterChannelWrite_effect {s : State} {p : Port} {u t : State} (hs : s.busy = false)
    (hu : ChannelWrite s.begin p u) (h : afterChannelWrite p u = .next t) : Effect s t := by
  have hb : u.busy = false := by rw [hu.busy]; exact hs
  obtain ⟨hh, he⟩ := (State.busy_eq_false_iff u).1 hb
  unfold afterChannelWrite at h
  cases ha : u.active p with
  | false =>
    rw [ha, if_neg (by decide), stores_next_iff] at h
    subst h
    exact .wrChannel hs p u hu ha
  | true =>
    rw [ha, if_pos rfl, startTransfer] at h
    have hsy := ((activeOf_eq_true_iff _).1 ha).2.1
    cases hm : syncOf (u.ch p).control with
    | none => exact absurd ((syncOf_eq_none_iff _).1 hm) hsy
    | some m =>
      rw [hm] at h
      cases m with
      | linkedList =>
        simp only [execEngListStart, engFront_of_running _ hh, he, if_true] at h
        split at h
        · rw [raise_next_iff] at h; subst h; exact .startFatal hs p u hu ha _
        · rename_i hp
          simp only [ne_eq, Decidable.not_not] at hp
          subst hp
          split at h
          · rw [raise_next_iff] at h; subst h; exact .startFatal hs _ u hu ha _
          · rename_i hd
            simp only [Host.Outcome.next.injEq] at h
            subst h
            refine .startList hs u hu ha hm ?_
            cases hd' : directionOf (u.ch .gpu).control <;> simp_all
      | manual =>
        simp only [execEngBlockStart, engFront_of_running _ hh, he, if_true] at h
        split at h
        · rw [raise_next_iff] at h; subst h; exact .startFatal hs p u hu ha _
        · simp only [Host.Outcome.next.injEq] at h; subst h; exact .startBlock hs p u hu ha (.inl hm) _
      | request =>
        simp only [execEngBlockStart, engFront_of_running _ hh, he, if_true] at h
        split at h
        · rw [raise_next_iff] at h; subst h; exact .startFatal hs p u hu ha _
        · simp only [Host.Outcome.next.injEq] at h; subst h; exact .startBlock hs p u hu ha (.inr hm) _

theorem wrBase_effect {p : Port} {val : Word} {s t : State} (h : wrBase p val s = .next t) : Effect s t := by
  rw [wrBase, regFront_next_iff] at h
  exact afterChannelWrite_effect h.1 (.base val) h.2

theorem wrBlock_effect {p : Port} {val : Word} {s t : State} (h : wrBlock p val s = .next t) : Effect s t := by
  rw [wrBlock, regFront_next_iff] at h
  exact afterChannelWrite_effect h.1 (.block val) h.2

theorem wrChctl_effect {p : Port} {val : Word} {s t : State} (h : wrChctl p val s = .next t) : Effect s t := by
  rw [wrChctl, regFront_next_iff] at h
  obtain ⟨hs, h⟩ := h
  split at h
  · rw [raise_next_iff] at h; subst h; exact .raised hs _
  · rename_i hv; exact afterChannelWrite_effect hs (.control val hv) h

/-- A load that only hands back a value. -/
theorem regFront_loads_effect {v : State → Value} {s t : State} (h : regFront s (fun s => loads (v s) s) = .next t) :
    Effect s t := by
  rw [regFront_next_iff, loads_next_iff] at h
  obtain ⟨hs, rfl⟩ := h
  exact .returned hs _

theorem rdBase_effect {p : Port} {s t : State} (h : rdBase p s = .next t) : Effect s t :=
  regFront_loads_effect (v := fun s => .word (s.ch p).base) h

theorem rdBlock_effect {p : Port} {s t : State} (h : rdBlock p s = .next t) : Effect s t :=
  regFront_loads_effect (v := fun s => .word (blockWord (s.ch p).blockSize (s.ch p).blockCount)) h

theorem rdChctl_effect {p : Port} {s t : State} (h : rdChctl p s = .next t) : Effect s t :=
  regFront_loads_effect (v := fun s => .word (s.ch p).control) h

theorem execRdDmactl_effect {s t : State} (h : execRdDmactl s = .next t) : Effect s t :=
  regFront_loads_effect (v := fun s => .word s.dma.control) h

theorem execRdDmairq_effect {s t : State} (h : execRdDmairq s = .next t) : Effect s t :=
  regFront_loads_effect (v := fun s => .word s.dma.interrupt) h

theorem rdChannelRow_effect {p : Port} {r : ChannelReg} {s t : State} (h : rdChannel p r s = .next t) : Effect s t := by
  cases r with
  | base => cases p <;> exact rdBase_effect h
  | block => cases p <;> exact rdBlock_effect h
  | chctl => cases p <;> exact rdChctl_effect h

theorem wrChannelRow_effect {p : Port} {r : ChannelReg} {val : Word} {s t : State}
    (h : wrChannel p r val s = .next t) : Effect s t := by
  cases r with
  | base => cases p <;> exact wrBase_effect h
  | block => cases p <;> exact wrBlock_effect h
  | chctl => cases p <;> exact wrChctl_effect h

theorem execWrDmactl_effect {val : Word} {s t : State} (h : execWrDmactl val s = .next t) : Effect s t := by
  rw [execWrDmactl, regFront_next_iff, stores_next_iff] at h
  obtain ⟨hs, rfl⟩ := h
  exact .wrDmaControl hs val

theorem execWrDmairq_effect {val : Word} {s t : State} (h : execWrDmairq val s = .next t) : Effect s t := by
  rw [execWrDmairq, regFront_next_iff, stores_next_iff] at h
  obtain ⟨hs, rfl⟩ := h
  exact .wrDmaInterrupt hs val

/-- A reserved register access raises. -/
theorem reservedFront_effect {off : BitVec 7} {c : Cause} {s t : State}
    (h : reservedFront off s (fun s => raise c s) = .next t) : Effect s t := by
  rw [reservedFront_next_iff, raise_next_iff] at h
  obtain ⟨hs, -, -, rfl⟩ := h
  exact .raised hs c

theorem Effect.of_begin {s t : State} (h : Effect s.begin t) (hs : s.busy = false) : Effect s t := by
  have idle := ((State.busy_eq_false_iff s).1 hs).2
  cases h with
  | returned _ r => exact .returned hs r
  | raised _ c => exact .raised hs c
  | storeRam _ o v ho => exact .storeRam hs o v ho
  | loadGpu _ o T v => exact .loadGpu hs o T v
  | storeGpu _ o v => exact .storeGpu hs o v
  | storeCacheCtl _ v => exact .storeCacheCtl hs v
  | wrDmaControl _ v => exact .wrDmaControl hs v
  | wrDmaInterrupt _ v => exact .wrDmaInterrupt hs v
  | wrChannel _ p u hu ha => exact .wrChannel hs p u hu ha
  | startBlock _ p u hu ha hm n => exact .startBlock hs p u hu ha hm n
  | startList _ u hu ha hm hd => exact .startList hs u hu ha hm hd
  | startFatal _ p u hu ha c => exact .startFatal hs p u hu ha c
  | blockGpuWord _ _ _ he => simp [idle] at he
  | blockOtcWord _ _ _ he => simp [idle] at he
  | blockFatal _ _ _ _ he => simp [idle] at he
  | blockDone _ _ _ he => simp [idle] at he
  | listHeader _ _ he => simp [idle] at he
  | listWord _ _ _ _ he => simp [idle] at he
  | listNext _ _ _ _ he => simp [idle] at he
  | listEnd _ _ _ _ he => simp [idle] at he

theorem dmaRead_effect {T : Width} {o : BitVec 7} {s t : State} (hs : s.busy = false)
    (h : dmaRead T o s.begin = .next t) : Effect s t := by
  unfold dmaRead at h
  split at h
  · rw [raise_next_iff] at h; subst h; exact .raised hs _
  · split at h
    · exact (rdChannelRow_effect h).of_begin hs
    · exact (execRdDmactl_effect h).of_begin hs
    · exact (execRdDmairq_effect h).of_begin hs
    · exact (reservedFront_effect h).of_begin hs

theorem dmaWrite_effect {o : BitVec 7} {v : Value} {s t : State} (hs : s.busy = false)
    (h : dmaWrite o v s.begin = .next t) : Effect s t := by
  unfold dmaWrite at h
  split at h
  · split at h
    · exact (wrChannelRow_effect h).of_begin hs
    · exact (execWrDmactl_effect h).of_begin hs
    · exact (execWrDmairq_effect h).of_begin hs
    · exact (reservedFront_effect h).of_begin hs
  · rw [raise_next_iff] at h; subst h; exact .raised hs _
  · rw [raise_next_iff] at h; subst h; exact .raised hs _

/-! ### The bus rows -/

/-- A bus load that only hands back a value. -/
theorem busFront_loads_effect {T : Width} {addr : Word} {tg : Target} {v : Word → State → Value} {s t : State}
    (h : busFront T addr tg s (fun o s => loads (v o s) s) = .next t) : Effect s t := by
  rw [busFront_next_iff] at h
  obtain ⟨hs, -, o, -, h⟩ := h
  rw [loads_next_iff] at h
  subst h
  exact .returned hs _

/-- A bus store that is dropped. -/
theorem busFront_stores_effect {T : Width} {addr : Word} {tg : Target} {s t : State}
    (h : busFront T addr tg s (fun _ s => stores s) = .next t) : Effect s t := by
  rw [busFront_next_iff] at h
  obtain ⟨hs, -, o, -, h⟩ := h
  rw [stores_next_iff] at h
  subst h
  exact .returned hs _

/-- An unmapped access raises. -/
theorem unmappedFront_effect {T : Width} {addr : Word} {tg : Option Target} {c : Cause} {s t : State}
    (h : unmappedFront T addr tg s (fun s => raise c s) = .next t) : Effect s t := by
  rw [unmappedFront_next_iff, raise_next_iff] at h
  obtain ⟨hs, -, -, rfl⟩ := h
  exact .raised hs c

theorem execLoadDma_effect {T : Width} {addr : Word} {s t : State} (h : execLoadDma T addr s = .next t) : Effect s t := by
  rw [execLoadDma, busFront_next_iff] at h
  obtain ⟨hs, -, o, -, h⟩ := h
  exact dmaRead_effect hs h

theorem execLoadGpu_effect {T : Width} {addr : Word} {s t : State} (h : execLoadGpu T addr s = .next t) : Effect s t := by
  rw [execLoadGpu, busFront_next_iff] at h
  obtain ⟨hs, -, o, -, h⟩ := h
  rw [gpuLoad, loads_next_iff] at h
  subst h
  exact .loadGpu hs o T _

theorem execStoreRam_effect {addr : Word} {v : Value} {s t : State} (h : execStoreRam addr v s = .next t) :
    Effect s t := by
  rw [execStoreRam, busFront_next_iff] at h
  obtain ⟨hs, ha, o, ho, h⟩ := h
  rw [stores_next_iff] at h
  subst h
  exact .storeRam hs o v (access_inside (.inl rfl) ha ho)

theorem execStoreDma_effect {addr : Word} {v : Value} {s t : State} (h : execStoreDma addr v s = .next t) :
    Effect s t := by
  rw [execStoreDma, busFront_next_iff] at h
  obtain ⟨hs, -, o, -, h⟩ := h
  exact dmaWrite_effect hs h

theorem execStoreGpu_effect {addr : Word} {v : Value} {s t : State} (h : execStoreGpu addr v s = .next t) :
    Effect s t := by
  rw [execStoreGpu, busFront_next_iff] at h
  obtain ⟨hs, -, o, -, h⟩ := h
  rw [stores_next_iff] at h
  subst h
  exact .storeGpu hs o v

theorem execStoreCacheCtl_effect {addr : Word} {v : Value} {s t : State} (h : execStoreCacheCtl addr v s = .next t) :
    Effect s t := by
  rw [execStoreCacheCtl, busFront_next_iff] at h
  obtain ⟨hs, -, o, -, h⟩ := h
  split at h
  · rw [stores_next_iff] at h; subst h; exact .storeCacheCtl hs _
  · rw [raise_next_iff] at h; subst h; exact .raised hs _
  · rw [raise_next_iff] at h; subst h; exact .raised hs _

theorem execStoreMemCtl_effect {addr : Word} {v : Value} {s t : State} (h : execStoreMemCtl addr v s = .next t) :
    Effect s t := by
  rw [execStoreMemCtl, busFront_next_iff] at h
  obtain ⟨hs, -, o, -, h⟩ := h
  split at h
  · rw [raise_next_iff] at h; subst h; exact .raised hs _
  · split at h
    · rw [raise_next_iff] at h; subst h; exact .raised hs _
    · rw [stores_next_iff] at h; subst h; exact .returned hs _

/-! ### The engine rows -/

theorem execEngBlockGpuWord_effect {s t : State} (h : execEngBlockGpuWord s = .next t) : Effect s t := by
  rw [execEngBlockGpuWord, engFront_next_iff] at h
  obtain ⟨hh, h⟩ := h
  split at h
  · rename_i he
    split at h
    · rename_i hc
      obtain ⟨-, -, rfl⟩ := hc
      simp only [Host.Outcome.next.injEq] at h
      subst h
      exact .blockGpuWord hh _ _ he _ _ _
    · exact absurd h (by simp)
  · exact absurd h (by simp)

theorem execEngBlockOtcWord_effect {s t : State} (h : execEngBlockOtcWord s = .next t) : Effect s t := by
  rw [execEngBlockOtcWord, engFront_next_iff] at h
  obtain ⟨hh, h⟩ := h
  split at h
  · rename_i he
    split at h
    · rename_i hc
      obtain ⟨-, -, rfl⟩ := hc
      simp only [Host.Outcome.next.injEq] at h
      subst h
      exact .blockOtcWord hh _ _ he _ _ _
    · exact absurd h (by simp)
  · exact absurd h (by simp)

theorem execEngBlockFromRamFatal_effect {s t : State} (h : execEngBlockFromRamFatal s = .next t) : Effect s t := by
  rw [execEngBlockFromRamFatal, engFront_next_iff] at h
  obtain ⟨hh, h⟩ := h
  split at h
  · rename_i he
    split at h
    · rw [raise_next_iff] at h; subst h; exact .blockFatal hh _ _ _ he _
    · exact absurd h (by simp)
  · exact absurd h (by simp)

theorem execEngBlockToRamFatal_effect {s t : State} (h : execEngBlockToRamFatal s = .next t) : Effect s t := by
  rw [execEngBlockToRamFatal, engFront_next_iff] at h
  obtain ⟨hh, h⟩ := h
  split at h
  · rename_i he
    split at h
    · rw [raise_next_iff] at h; subst h; exact .blockFatal hh _ _ _ he _
    · exact absurd h (by simp)
  · exact absurd h (by simp)

theorem execEngBlockDone_effect {s t : State} (h : execEngBlockDone s = .next t) : Effect s t := by
  rw [execEngBlockDone, engFront_next_iff] at h
  obtain ⟨hh, h⟩ := h
  split at h
  · rename_i he
    split at h
    · rename_i hn
      subst hn
      rw [done_next_iff] at h; subst h; exact .blockDone hh _ _ he
    · exact absurd h (by simp)
  · exact absurd h (by simp)

theorem execEngListHeader_effect {s t : State} (h : execEngListHeader s = .next t) : Effect s t := by
  rw [execEngListHeader, engFront_next_iff] at h
  obtain ⟨hh, h⟩ := h
  split at h
  · rename_i he
    simp only [Host.Outcome.next.injEq] at h
    subst h
    exact .listHeader hh _ he _ _
  · exact absurd h (by simp)

theorem execEngListWord_effect {s t : State} (h : execEngListWord s = .next t) : Effect s t := by
  rw [execEngListWord, engFront_next_iff] at h
  obtain ⟨hh, h⟩ := h
  split at h
  · rename_i he
    split at h
    · simp only [Host.Outcome.next.injEq] at h
      subst h
      exact .listWord hh _ _ _ he _ _ _
    · exact absurd h (by simp)
  · exact absurd h (by simp)

theorem execEngListNext_effect {s t : State} (h : execEngListNext s = .next t) : Effect s t := by
  rw [execEngListNext, engFront_next_iff] at h
  obtain ⟨hh, h⟩ := h
  split at h
  · rename_i he
    split at h
    · simp only [Host.Outcome.next.injEq] at h
      subst h
      exact .listNext hh _ _ _ he _
    · exact absurd h (by simp)
  · exact absurd h (by simp)

theorem execEngListEnd_effect {s t : State} (h : execEngListEnd s = .next t) : Effect s t := by
  rw [execEngListEnd, engFront_next_iff] at h
  obtain ⟨hh, h⟩ := h
  split at h
  · rename_i he
    split at h
    · rw [done_next_iff] at h; subst h; exact .listEnd hh _ _ _ he
    · exact absurd h (by simp)
  · exact absurd h (by simp)

/-! ### Every instruction, and the step -/

/-- Every next state of an instruction that a step can fetch is one of the effects. The two engine starts are no instruction a step
fetches: a channel write runs them (log entry 17). -/
theorem exec_effect {i : Instr} {s t : State} (hi : ∀ p, i ≠ .engBlockStart p ∧ i ≠ .engListStart p)
    (h : exec i s = .next t) : Effect s t := by
  cases i with
  | loadRam T addr => exact busFront_loads_effect (v := fun o s => s.ramRead o T) h
  | loadBios T addr => exact busFront_loads_effect (v := fun o s => s.biosRead o T) h
  | loadIrq T addr => exact busFront_loads_effect (v := fun _ _ => fromU32 T 0#32) h
  | loadDma T addr => exact execLoadDma_effect h
  | loadGpu T addr => exact execLoadGpu_effect h
  | loadTimers T addr => exact busFront_loads_effect (v := fun _ _ => fromU32 T 0#32) h
  | loadSpu T addr => exact busFront_loads_effect (v := fun _ _ => fromU32 T 0#32) h
  | loadExp1 T addr => exact busFront_loads_effect (v := fun _ _ => fromU32 T 0xffffffff#32) h
  | loadUnmapped T addr => exact unmappedFront_effect h
  | storeRam addr v => exact execStoreRam_effect h
  | storeIrq addr v => exact busFront_stores_effect h
  | storeDma addr v => exact execStoreDma_effect h
  | storeGpu addr v => exact execStoreGpu_effect h
  | storeTimers addr v => exact busFront_stores_effect h
  | storeSpu addr v => exact busFront_stores_effect h
  | storeCacheCtl addr v => exact execStoreCacheCtl_effect h
  | storeMemCtl addr v => exact execStoreMemCtl_effect h
  | storeRamSize addr v => exact busFront_stores_effect h
  | storeExp2 addr v => exact busFront_stores_effect h
  | storeUnmapped addr v => exact unmappedFront_effect h
  | rdReserved off => exact reservedFront_effect h
  | wrReserved off val => exact reservedFront_effect h
  | wrDmactl val => exact execWrDmactl_effect h
  | wrDmairq val => exact execWrDmairq_effect h
  | wrBaseMdecIn val | wrBaseMdecOut val | wrBaseGpu val | wrBaseCdRom val | wrBaseSpu val | wrBasePio val
  | wrBaseOtc val => exact wrBase_effect h
  | wrBlockMdecIn val | wrBlockMdecOut val | wrBlockGpu val | wrBlockCdRom val | wrBlockSpu val | wrBlockPio val
  | wrBlockOtc val => exact wrBlock_effect h
  | wrChctlMdecIn val | wrChctlMdecOut val | wrChctlGpu val | wrChctlCdRom val | wrChctlSpu val | wrChctlPio val
  | wrChctlOtc val => exact wrChctl_effect h
  | engBlockStart p => exact absurd rfl (hi p).1
  | engListStart p => exact absurd rfl (hi p).2
  | engBlockGpuWord => exact execEngBlockGpuWord_effect h
  | engBlockFromRamFatal => exact execEngBlockFromRamFatal_effect h
  | engBlockOtcWord => exact execEngBlockOtcWord_effect h
  | engBlockToRamFatal => exact execEngBlockToRamFatal_effect h
  | engBlockDone => exact execEngBlockDone_effect h
  | engListHeader => exact execEngListHeader_effect h
  | engListWord => exact execEngListWord_effect h
  | engListNext => exact execEngListNext_effect h
  | engListEnd => exact execEngListEnd_effect h
  | rdBaseMdecIn | rdBaseMdecOut | rdBaseGpu | rdBaseCdRom | rdBaseSpu | rdBasePio | rdBaseOtc => exact rdBase_effect h
  | rdBlockMdecIn | rdBlockMdecOut | rdBlockGpu | rdBlockCdRom | rdBlockSpu | rdBlockPio | rdBlockOtc => exact rdBlock_effect h
  | rdChctlMdecIn | rdChctlMdecOut | rdChctlGpu | rdChctlCdRom | rdChctlSpu | rdChctlPio | rdChctlOtc => exact rdChctl_effect h
  | rdDmactl => exact execRdDmactl_effect h
  | rdDmairq => exact execRdDmairq_effect h

/-- The engine's selection is never a start. -/
theorem selectEngine_ne_start {s : State} {i : Instr} (h : selectEngine s = some i) (p : Port) :
    i ≠ .engBlockStart p ∧ i ≠ .engListStart p := by
  unfold selectEngine at h
  cases he : s.eng with
  | idle => simp [he] at h
  | block q addr n =>
    rw [he] at h
    simp only at h
    split at h
    · simp only [Option.some.injEq] at h; subst h; simp
    · cases hd : directionOf (s.ch q).control <;> rw [hd] at h <;> simp only at h <;> split at h <;>
        simp only [Option.some.injEq] at h <;> subst h <;> simp
  | listHeader c => rw [he] at h; simp only [Option.some.injEq] at h; subst h; simp
  | listPayload a l hd =>
    rw [he] at h
    simp only at h
    split at h
    · simp only [Option.some.injEq] at h; subst h; simp
    · split at h <;> simp only [Option.some.injEq] at h <;> subst h <;> simp

/-- A decoded request is never a start. -/
theorem decode_ne_start {r : Request} {i : Instr} (h : decode r = .ok i) (p : Port) :
    i ≠ .engBlockStart p ∧ i ≠ .engListStart p := by
  cases r with
  | load T addr =>
    simp only [decode] at h
    split at h
    · simp only [Except.ok.injEq] at h; subst h; unfold loadInstr; split <;> simp
    · simp at h
  | store addr v =>
    simp only [decode] at h
    split at h
    · simp only [Except.ok.injEq] at h; subst h; unfold storeInstr; split <;> simp
    · simp at h
  | dmaRead off =>
    simp only [decode] at h
    split at h
    · simp only [Except.ok.injEq] at h
      subst h
      unfold rdInstr
      split
      · rename_i q r _; cases q <;> cases r <;> simp [rdChannelInstr]
      all_goals simp
    · simp at h
  | dmaWrite off val =>
    simp only [decode] at h
    split at h
    · simp only [Except.ok.injEq] at h
      subst h
      unfold wrInstr
      split
      · rename_i q r _; cases q <;> cases r <;> simp [wrChannelInstr]
      all_goals simp
    · simp at h

/-- What a step does: it is taken from a state that is not halted, and it waits, or takes the head of the queue, or runs the engine. -/
theorem step_cases {s t : State} (h : step s = .next t) :
    s.halt = none ∧
      ((selectEngine s = none ∧ s.requests = [] ∧ t = s) ∨
        (∃ r rs i, selectEngine s = none ∧ s.requests = r :: rs ∧ decode r = .ok i ∧
          exec i { s with requests := rs } = .next t) ∨
        (∃ i, selectEngine s = some i ∧ exec i s = .next t)) := by
  have hh : s.halt = none := by
    cases hh : s.halt with
    | none => rfl
    | some c => simp [step, hh] at h
  refine ⟨hh, ?_⟩
  simp only [step, hh, fetch] at h
  cases hse : selectEngine s with
  | some i =>
    rw [hse] at h
    exact .inr (.inr ⟨i, rfl, h⟩)
  | none =>
    rw [hse] at h
    simp only [fetchRequest] at h
    cases hr : s.requests with
    | nil =>
      rw [hr] at h
      simp only [Host.Outcome.next.injEq] at h
      exact .inl ⟨rfl, rfl, h.symm⟩
    | cons r rs =>
      rw [hr] at h
      simp only at h
      cases hd : decode r with
      | error e => rw [hd] at h; simp at h
      | ok i =>
        rw [hd] at h
        exact .inr (.inl ⟨r, rs, i, rfl, rfl, hd, h⟩)

/-- Every next state of a step is the state itself, or an effect on it, its queue possibly shorter by one. -/
theorem step_effect {s t : State} (h : step s = .next t) :
    t = s ∨ ∃ rs, Effect { s with requests := rs } t := by
  obtain ⟨-, ⟨-, -, rfl⟩ | ⟨r, rs, i, -, -, hd, hx⟩ | ⟨i, hse, hx⟩⟩ := step_cases h
  · exact .inl rfl
  · exact .inr ⟨rs, exec_effect (decode_ne_start hd) hx⟩
  · exact .inr ⟨s.requests, exec_effect (selectEngine_ne_start hse) hx⟩

end Sys2Proof.Machine
end

