-- ==== Sys2Proof/Laws/PerInstr.lean ====
section
/-!
SUPPORT. The per-instruction family EncodeOfDecode: whatever request decodes to an instruction is that instruction's encoding, so a
request has one meaning and the decoder drops no bit of it.
-/

namespace Sys2Proof.Laws.EncodeOfDecode

/-- A request that decodes to `i` is the one `i` encodes to. -/
def Statement (i : Instr) : Prop := ∀ r, decode r = .ok i → encode i = some r

theorem encode_loadInstr (T : Width) (addr : Word) (t : Option Target) :
    encode (loadInstr T addr t) = some (.load T addr) := by
  unfold loadInstr
  split <;> rfl

theorem encode_storeInstr (addr : Word) (v : Value) (t : Option Target) :
    encode (storeInstr addr v t) = some (.store addr v) := by
  unfold storeInstr
  split <;> rfl

theorem encode_rdInstr (off : BitVec 7) : encode (rdInstr off) = some (.dmaRead off) := by
  revert off
  decide

/-- The offset of a channel's register is the one its read encodes to (R110). -/
theorem encode_rdChannelInstr_of_regSel : ∀ (p : Port) (r : ChannelReg) (off : BitVec 7),
    regSel off = .channel p r → encode (rdChannelInstr p r) = some (.dmaRead off) := by
  intro p r off h
  have := encode_rdInstr off
  rwa [rdInstr, h] at this

theorem encode_wrInstr (off : BitVec 7) (val : Word) : encode (wrInstr off val) = some (.dmaWrite off val) := by
  unfold wrInstr
  cases h : regSel off with
  | channel p r =>
    have h' := encode_rdChannelInstr_of_regSel p r off h
    cases p <;> cases r <;> simp only [rdChannelInstr, encode, Option.some.injEq, Request.dmaRead.injEq] at h' <;>
      subst h' <;> rfl
  | dmaCtl =>
    have h' := encode_rdInstr off
    simp only [rdInstr, h, encode, Option.some.injEq, Request.dmaRead.injEq] at h'
    subst h'
    rfl
  | dmaIrq =>
    have h' := encode_rdInstr off
    simp only [rdInstr, h, encode, Option.some.injEq, Request.dmaRead.injEq] at h'
    subst h'
    rfl
  | reserved => rfl

/-- The decoder drops no bit of any request. -/
theorem encode_of_decode (i : Instr) : Statement i := by
  intro r h
  cases r <;> simp only [decode] at h <;> split at h <;> simp only [Except.ok.injEq, reduceCtorEq] at h <;> subst h
  · exact encode_loadInstr _ _ _
  · exact encode_storeInstr _ _ _
  · exact encode_rdInstr _
  · exact encode_wrInstr _ _

theorem loadRam (T : Width) (addr : Word) : Statement (.loadRam T addr) := encode_of_decode _
theorem loadBios (T : Width) (addr : Word) : Statement (.loadBios T addr) := encode_of_decode _
theorem loadIrq (T : Width) (addr : Word) : Statement (.loadIrq T addr) := encode_of_decode _
theorem loadDma (T : Width) (addr : Word) : Statement (.loadDma T addr) := encode_of_decode _
theorem loadGpu (T : Width) (addr : Word) : Statement (.loadGpu T addr) := encode_of_decode _
theorem loadTimers (T : Width) (addr : Word) : Statement (.loadTimers T addr) := encode_of_decode _
theorem loadSpu (T : Width) (addr : Word) : Statement (.loadSpu T addr) := encode_of_decode _
theorem loadExp1 (T : Width) (addr : Word) : Statement (.loadExp1 T addr) := encode_of_decode _
theorem loadUnmapped (T : Width) (addr : Word) : Statement (.loadUnmapped T addr) := encode_of_decode _
theorem storeRam (addr : Word) (v : Value) : Statement (.storeRam addr v) := encode_of_decode _
theorem storeIrq (addr : Word) (v : Value) : Statement (.storeIrq addr v) := encode_of_decode _
theorem storeDma (addr : Word) (v : Value) : Statement (.storeDma addr v) := encode_of_decode _
theorem storeGpu (addr : Word) (v : Value) : Statement (.storeGpu addr v) := encode_of_decode _
theorem storeTimers (addr : Word) (v : Value) : Statement (.storeTimers addr v) := encode_of_decode _
theorem storeSpu (addr : Word) (v : Value) : Statement (.storeSpu addr v) := encode_of_decode _
theorem storeCacheCtl (addr : Word) (v : Value) : Statement (.storeCacheCtl addr v) := encode_of_decode _
theorem storeMemCtl (addr : Word) (v : Value) : Statement (.storeMemCtl addr v) := encode_of_decode _
theorem storeRamSize (addr : Word) (v : Value) : Statement (.storeRamSize addr v) := encode_of_decode _
theorem storeExp2 (addr : Word) (v : Value) : Statement (.storeExp2 addr v) := encode_of_decode _
theorem storeUnmapped (addr : Word) (v : Value) : Statement (.storeUnmapped addr v) := encode_of_decode _
theorem rdBaseMdecIn : Statement .rdBaseMdecIn := encode_of_decode _
theorem rdBlockMdecIn : Statement .rdBlockMdecIn := encode_of_decode _
theorem rdChctlMdecIn : Statement .rdChctlMdecIn := encode_of_decode _
theorem rdBaseMdecOut : Statement .rdBaseMdecOut := encode_of_decode _
theorem rdBlockMdecOut : Statement .rdBlockMdecOut := encode_of_decode _
theorem rdChctlMdecOut : Statement .rdChctlMdecOut := encode_of_decode _
theorem rdBaseGpu : Statement .rdBaseGpu := encode_of_decode _
theorem rdBlockGpu : Statement .rdBlockGpu := encode_of_decode _
theorem rdChctlGpu : Statement .rdChctlGpu := encode_of_decode _
theorem rdBaseCdRom : Statement .rdBaseCdRom := encode_of_decode _
theorem rdBlockCdRom : Statement .rdBlockCdRom := encode_of_decode _
theorem rdChctlCdRom : Statement .rdChctlCdRom := encode_of_decode _
theorem rdBaseSpu : Statement .rdBaseSpu := encode_of_decode _
theorem rdBlockSpu : Statement .rdBlockSpu := encode_of_decode _
theorem rdChctlSpu : Statement .rdChctlSpu := encode_of_decode _
theorem rdBasePio : Statement .rdBasePio := encode_of_decode _
theorem rdBlockPio : Statement .rdBlockPio := encode_of_decode _
theorem rdChctlPio : Statement .rdChctlPio := encode_of_decode _
theorem rdBaseOtc : Statement .rdBaseOtc := encode_of_decode _
theorem rdBlockOtc : Statement .rdBlockOtc := encode_of_decode _
theorem rdChctlOtc : Statement .rdChctlOtc := encode_of_decode _
theorem rdDmactl : Statement .rdDmactl := encode_of_decode _
theorem rdDmairq : Statement .rdDmairq := encode_of_decode _
theorem rdReserved (off : BitVec 7) : Statement (.rdReserved off) := encode_of_decode _
theorem wrBaseMdecIn (val : Word) : Statement (.wrBaseMdecIn val) := encode_of_decode _
theorem wrBlockMdecIn (val : Word) : Statement (.wrBlockMdecIn val) := encode_of_decode _
theorem wrChctlMdecIn (val : Word) : Statement (.wrChctlMdecIn val) := encode_of_decode _
theorem wrBaseMdecOut (val : Word) : Statement (.wrBaseMdecOut val) := encode_of_decode _
theorem wrBlockMdecOut (val : Word) : Statement (.wrBlockMdecOut val) := encode_of_decode _
theorem wrChctlMdecOut (val : Word) : Statement (.wrChctlMdecOut val) := encode_of_decode _
theorem wrBaseGpu (val : Word) : Statement (.wrBaseGpu val) := encode_of_decode _
theorem wrBlockGpu (val : Word) : Statement (.wrBlockGpu val) := encode_of_decode _
theorem wrChctlGpu (val : Word) : Statement (.wrChctlGpu val) := encode_of_decode _
theorem wrBaseCdRom (val : Word) : Statement (.wrBaseCdRom val) := encode_of_decode _
theorem wrBlockCdRom (val : Word) : Statement (.wrBlockCdRom val) := encode_of_decode _
theorem wrChctlCdRom (val : Word) : Statement (.wrChctlCdRom val) := encode_of_decode _
theorem wrBaseSpu (val : Word) : Statement (.wrBaseSpu val) := encode_of_decode _
theorem wrBlockSpu (val : Word) : Statement (.wrBlockSpu val) := encode_of_decode _
theorem wrChctlSpu (val : Word) : Statement (.wrChctlSpu val) := encode_of_decode _
theorem wrBasePio (val : Word) : Statement (.wrBasePio val) := encode_of_decode _
theorem wrBlockPio (val : Word) : Statement (.wrBlockPio val) := encode_of_decode _
theorem wrChctlPio (val : Word) : Statement (.wrChctlPio val) := encode_of_decode _
theorem wrBaseOtc (val : Word) : Statement (.wrBaseOtc val) := encode_of_decode _
theorem wrBlockOtc (val : Word) : Statement (.wrBlockOtc val) := encode_of_decode _
theorem wrChctlOtc (val : Word) : Statement (.wrChctlOtc val) := encode_of_decode _
theorem wrDmactl (val : Word) : Statement (.wrDmactl val) := encode_of_decode _
theorem wrDmairq (val : Word) : Statement (.wrDmairq val) := encode_of_decode _
theorem wrReserved (off : BitVec 7) (val : Word) : Statement (.wrReserved off val) := encode_of_decode _
theorem engBlockStart (p : Port) : Statement (.engBlockStart p) := encode_of_decode _
theorem engBlockGpuWord : Statement .engBlockGpuWord := encode_of_decode _
theorem engBlockFromRamFatal : Statement .engBlockFromRamFatal := encode_of_decode _
theorem engBlockOtcWord : Statement .engBlockOtcWord := encode_of_decode _
theorem engBlockToRamFatal : Statement .engBlockToRamFatal := encode_of_decode _
theorem engBlockDone : Statement .engBlockDone := encode_of_decode _
theorem engListStart (p : Port) : Statement (.engListStart p) := encode_of_decode _
theorem engListHeader : Statement .engListHeader := encode_of_decode _
theorem engListWord : Statement .engListWord := encode_of_decode _
theorem engListNext : Statement .engListNext := encode_of_decode _
theorem engListEnd : Statement .engListEnd := encode_of_decode _

end Sys2Proof.Laws.EncodeOfDecode
end

