-- ==== Sys2Proof/Tests/Slice0.lean ====
section
/-!
SUPPORT. The model's own tests: ill-formed terms, decoding from words written out from the spec's encodings, one step of each
instruction, and for each statement with hypotheses a state and operands that meet them. Expected results are those of
spec/95_test_vectors.md, or read by hand from the rule named.
-/

namespace Sys2Proof.Machine

/-- The answer is a next state that passes a check. -/
def answers (o : Out) (f : State → Bool) : Bool :=
  match o with
  | .next t => f t
  | _ => false

/-- The operation handed back a value. -/
def gives (o : Out) (v : Value) : Bool := answers o fun t => t.reply == some (.loaded v) && t.halt == none

/-- The store returned. -/
def stored (o : Out) : Bool := answers o fun t => t.reply == some .stored && t.halt == none

/-- The operation halted the block. -/
def halts (o : Out) (c : Cause) : Bool := answers o fun t => t.halt == some c && t.reply == none

/-- The operation was refused. -/
def refuses (o : Out) (r : Refusal) : Bool :=
  match o with
  | .refused q => q == r
  | _ => false

/-- The state after reset with some words of RAM written. -/
def withWords (ws : List (Word × Word)) : State :=
  ws.foldl (fun s w => s.ramWrite w.1 (.word w.2)) State.reset

/-- Seven channels told apart by their registers. -/
def sevenChannels : Channels :=
  { mdecIn := ⟨0x10#32, 0x11#16, 0x12#16, 0x2#32⟩
    mdecOut := ⟨0x20#32, 0x21#16, 0x22#16, 0x0#32⟩
    gpu := ⟨0x30#32, 0x31#16, 0x32#16, 0x401#32⟩
    cdRom := ⟨0x40#32, 0x41#16, 0x42#16, 0x200#32⟩
    spu := ⟨0x50#32, 0x51#16, 0x52#16, 0x201#32⟩
    pio := ⟨0x60#32, 0x61#16, 0x62#16, 0x1#32⟩
    otc := ⟨0x70#32, 0x71#16, 0x72#16, 0x3#32⟩ }

/-- The state after reset with those registers. -/
def busyBoard : State :=
  { State.reset with dma := { ch := sevenChannels, control := 0x076f4321#32, interrupt := 0x00840000#32 } }

/-- The state after reset with one channel's registers and the engine's state set. -/
def engineAt (p : Port) (c : Channel) (e : Engine) (ws : List (Word × Word)) : State :=
  ((withWords ws).setCh p c).setEng e

/-! ### Ill-formed terms -/

/-- Each load row refuses an address outside its range (R66), first bytes after the ranges (V-MAP-1), and the unmapped row a mapped one. -/
theorem test_wf_load_range :
    [Instr.loadRam .byte 0x00200000#32, .loadBios .byte 0x1fc80000#32, .loadIrq .byte 0x1f801078#32,
      .loadDma .byte 0x1f801100#32, .loadGpu .byte 0x1f801818#32, .loadTimers .byte 0x1f801130#32,
      .loadSpu .byte 0x1f801e80#32, .loadExp1 .byte 0x1f080000#32, .loadUnmapped .byte 0x001fffff#32].all
        (fun i => i.wf == false) = true := by decide

/-- Each store row refuses an address outside its range (R67). -/
theorem test_wf_store_range :
    [Instr.storeRam 0x00200000#32 (.byte 0), .storeIrq 0x1f801078#32 (.byte 0), .storeDma 0x1f801100#32 (.byte 0),
      .storeGpu 0x1f801818#32 (.byte 0), .storeTimers 0x1f801130#32 (.byte 0), .storeSpu 0x1f801e80#32 (.byte 0),
      .storeCacheCtl 0xfffe0134#32 (.byte 0), .storeMemCtl 0x1f801024#32 (.byte 0), .storeRamSize 0x1f801064#32 (.byte 0),
      .storeExp2 0x1f802042#32 (.byte 0), .storeUnmapped 0x1f802041#32 (.byte 0)].all (fun i => i.wf == false) = true := by
  decide

/-- Each bus row refuses a misaligned address inside its range (R71). -/
theorem test_wf_aligned :
    [Instr.loadRam .half 0x101#32, .loadBios .word 0x1fc00002#32, .loadIrq .half 0x1f801071#32, .loadDma .word 0x1f801082#32,
      .loadGpu .word 0x1f801811#32, .loadTimers .half 0x1f801101#32, .loadSpu .half 0x1f801c01#32, .loadExp1 .word 0x1f000001#32,
      .loadUnmapped .word 0x00200001#32, .storeRam 0x102#32 (.word 0), .storeIrq 0x1f801071#32 (.half 0),
      .storeDma 0x1f801081#32 (.half 0), .storeGpu 0x1f801812#32 (.word 0), .storeTimers 0x1f801101#32 (.half 0),
      .storeSpu 0x1f801c01#32 (.half 0), .storeCacheCtl 0xfffe0131#32 (.half 0), .storeMemCtl 0x1f801002#32 (.word 0),
      .storeRamSize 0x1f801061#32 (.half 0), .storeExp2 0x1f802001#32 (.half 0), .storeUnmapped 0x00200002#32 (.word 0)].all
        (fun i => i.wf == false) = true := by decide

/-- The reserved rows refuse an offset that selects a register, and one no word access can name (R110). -/
theorem test_wf_reserved :
    [Instr.rdReserved 0x08#7, .rdReserved 0x74#7, .rdReserved 0x0d#7, .wrReserved 0x60#7 0, .wrReserved 0x70#7 0,
      .wrReserved 0x7e#7 0].all (fun i => i.wf == false) = true := by decide

/-! ### Decoding -/

/-- The load rows from their tuples (R101; V-MASK, V-LS, V-MAP): one row each. -/
theorem test_decode_loads :
    decode (.load .word 0x80000100#32) = .ok (.loadRam .word 0x80000100#32) ∧
    decode (.load .word 0x9fc00000#32) = .ok (.loadBios .word 0x9fc00000#32) ∧
    decode (.load .half 0x9f801070#32) = .ok (.loadIrq .half 0x9f801070#32) ∧
    decode (.load .word 0xbf801080#32) = .ok (.loadDma .word 0xbf801080#32) ∧
    decode (.load .word 0x1f801814#32) = .ok (.loadGpu .word 0x1f801814#32) ∧
    decode (.load .half 0x1f80112e#32) = .ok (.loadTimers .half 0x1f80112e#32) ∧
    decode (.load .half 0x1f801e7e#32) = .ok (.loadSpu .half 0x1f801e7e#32) ∧
    decode (.load .byte 0xbf000084#32) = .ok (.loadExp1 .byte 0xbf000084#32) ∧
    decode (.load .word 0x3fc00000#32) = .ok (.loadUnmapped .word 0x3fc00000#32) := by decide

/-- The store rows from their tuples (R101; V-LS, V-CC, V-MC, V-MAP-4): one row each. -/
theorem test_decode_stores :
    decode (.store 0xa01ffffc#32 (.word 0xcafef00d#32)) = .ok (.storeRam 0xa01ffffc#32 (.word 0xcafef00d#32)) ∧
    decode (.store 0xbf801074#32 (.word 0#32)) = .ok (.storeIrq 0xbf801074#32 (.word 0#32)) ∧
    decode (.store 0x9f8010a8#32 (.word 0x01000401#32)) = .ok (.storeDma 0x9f8010a8#32 (.word 0x01000401#32)) ∧
    decode (.store 0x1f801810#32 (.word 0xe1000000#32)) = .ok (.storeGpu 0x1f801810#32 (.word 0xe1000000#32)) ∧
    decode (.store 0x1f801100#32 (.half 0x1234#16)) = .ok (.storeTimers 0x1f801100#32 (.half 0x1234#16)) ∧
    decode (.store 0x1f801d80#32 (.half 0x3fff#16)) = .ok (.storeSpu 0x1f801d80#32 (.half 0x3fff#16)) ∧
    decode (.store 0xfffe0130#32 (.word 0x804#32)) = .ok (.storeCacheCtl 0xfffe0130#32 (.word 0x804#32)) ∧
    decode (.store 0x1f801020#32 (.word 0x00031125#32)) = .ok (.storeMemCtl 0x1f801020#32 (.word 0x00031125#32)) ∧
    decode (.store 0x1f801060#32 (.word 0xb88#32)) = .ok (.storeRamSize 0x1f801060#32 (.word 0xb88#32)) ∧
    decode (.store 0x1f802041#32 (.byte 0x0c#8)) = .ok (.storeExp2 0x1f802041#32 (.byte 0x0c#8)) ∧
    decode (.store 0xbfc00000#32 (.word 0#32)) = .ok (.storeUnmapped 0xbfc00000#32 (.word 0#32)) := by decide

/-- The register reads by their offsets, major then minor, bit by bit (R110). -/
theorem test_decode_dma_reads :
    decode (.dmaRead 0b0000000#7) = .ok (.rdBaseMdecIn) ∧
    decode (.dmaRead 0b0000100#7) = .ok (.rdBlockMdecIn) ∧
    decode (.dmaRead 0b0001000#7) = .ok (.rdChctlMdecIn) ∧
    decode (.dmaRead 0b0010000#7) = .ok (.rdBaseMdecOut) ∧
    decode (.dmaRead 0b0010100#7) = .ok (.rdBlockMdecOut) ∧
    decode (.dmaRead 0b0011000#7) = .ok (.rdChctlMdecOut) ∧
    decode (.dmaRead 0b0100000#7) = .ok (.rdBaseGpu) ∧
    decode (.dmaRead 0b0100100#7) = .ok (.rdBlockGpu) ∧
    decode (.dmaRead 0b0101000#7) = .ok (.rdChctlGpu) ∧
    decode (.dmaRead 0b0110000#7) = .ok (.rdBaseCdRom) ∧
    decode (.dmaRead 0b0110100#7) = .ok (.rdBlockCdRom) ∧
    decode (.dmaRead 0b0111000#7) = .ok (.rdChctlCdRom) ∧
    decode (.dmaRead 0b1000000#7) = .ok (.rdBaseSpu) ∧
    decode (.dmaRead 0b1000100#7) = .ok (.rdBlockSpu) ∧
    decode (.dmaRead 0b1001000#7) = .ok (.rdChctlSpu) ∧
    decode (.dmaRead 0b1010000#7) = .ok (.rdBasePio) ∧
    decode (.dmaRead 0b1010100#7) = .ok (.rdBlockPio) ∧
    decode (.dmaRead 0b1011000#7) = .ok (.rdChctlPio) ∧
    decode (.dmaRead 0b1100000#7) = .ok (.rdBaseOtc) ∧
    decode (.dmaRead 0b1100100#7) = .ok (.rdBlockOtc) ∧
    decode (.dmaRead 0b1101000#7) = .ok (.rdChctlOtc) ∧
    decode (.dmaRead 0b1110000#7) = .ok (.rdDmactl) ∧
    decode (.dmaRead 0b1110100#7) = .ok (.rdDmairq) ∧
    decode (.dmaRead 0b1111100#7) = .ok (.rdReserved 0b1111100#7) := by decide

/-- The register writes by their offsets, major then minor, bit by bit (R110). -/
theorem test_decode_dma_writes (val : Word) :
    decode (.dmaWrite 0b0000000#7 val) = .ok (.wrBaseMdecIn val) ∧
    decode (.dmaWrite 0b0000100#7 val) = .ok (.wrBlockMdecIn val) ∧
    decode (.dmaWrite 0b0001000#7 val) = .ok (.wrChctlMdecIn val) ∧
    decode (.dmaWrite 0b0010000#7 val) = .ok (.wrBaseMdecOut val) ∧
    decode (.dmaWrite 0b0010100#7 val) = .ok (.wrBlockMdecOut val) ∧
    decode (.dmaWrite 0b0011000#7 val) = .ok (.wrChctlMdecOut val) ∧
    decode (.dmaWrite 0b0100000#7 val) = .ok (.wrBaseGpu val) ∧
    decode (.dmaWrite 0b0100100#7 val) = .ok (.wrBlockGpu val) ∧
    decode (.dmaWrite 0b0101000#7 val) = .ok (.wrChctlGpu val) ∧
    decode (.dmaWrite 0b0110000#7 val) = .ok (.wrBaseCdRom val) ∧
    decode (.dmaWrite 0b0110100#7 val) = .ok (.wrBlockCdRom val) ∧
    decode (.dmaWrite 0b0111000#7 val) = .ok (.wrChctlCdRom val) ∧
    decode (.dmaWrite 0b1000000#7 val) = .ok (.wrBaseSpu val) ∧
    decode (.dmaWrite 0b1000100#7 val) = .ok (.wrBlockSpu val) ∧
    decode (.dmaWrite 0b1001000#7 val) = .ok (.wrChctlSpu val) ∧
    decode (.dmaWrite 0b1010000#7 val) = .ok (.wrBasePio val) ∧
    decode (.dmaWrite 0b1010100#7 val) = .ok (.wrBlockPio val) ∧
    decode (.dmaWrite 0b1011000#7 val) = .ok (.wrChctlPio val) ∧
    decode (.dmaWrite 0b1100000#7 val) = .ok (.wrBaseOtc val) ∧
    decode (.dmaWrite 0b1100100#7 val) = .ok (.wrBlockOtc val) ∧
    decode (.dmaWrite 0b1101000#7 val) = .ok (.wrChctlOtc val) ∧
    decode (.dmaWrite 0b1110000#7 val) = .ok (.wrDmactl val) ∧
    decode (.dmaWrite 0b1110100#7 val) = .ok (.wrDmairq val) ∧
    decode (.dmaWrite 0b1111100#7 val) = .ok (.wrReserved 0b1111100#7 val) := by
  refine ⟨rfl, rfl, rfl, rfl, rfl, rfl, rfl, rfl, rfl, rfl, rfl, rfl, rfl, rfl, rfl, rfl, rfl, rfl, rfl, rfl, rfl, rfl, rfl, rfl⟩

/-- The words of spec/opcode_table.json: the match of a load row, a store-only row, the two unmapped kinds, and register rows. -/
theorem test_decode_table_words :
    decodeTableWord 32 0x00000000 = some (.loadRam .word 0x00000000#32) ∧
    decodeTableWord 32 0x1fc00000 = some (.loadBios .word 0x1fc00000#32) ∧
    decodeTableWord 32 0xfffe0130 = some (.storeCacheCtl 0xfffe0130#32 (.word 0#32)) ∧
    decodeTableWord 32 0x1f801000 = some (.storeMemCtl 0x1f801000#32 (.word 0#32)) ∧
    decodeTableWord 32 0x1f080000 = some (.loadUnmapped .word 0x1f080000#32) ∧
    decodeTableWord 8 0x28 = some .rdChctlGpu ∧ decodeTableWord 8 0x74 = some .rdDmairq ∧
    decodeTableWord 8 0x0c = some (.rdReserved 0x0c#7) ∧ decodeTableWord 8 0x0d = none := by decide

/-- V-LS: misaligned operations are rejected by name. -/
theorem test_decode_misaligned :
    decode (.load .half 0x00000101#32) = .error .misaligned ∧
    decode (.store 0x00000102#32 (.word 0#32)) = .error .misaligned ∧ decode (.dmaRead 0b0001001#7) = .error .misaligned := by
  decide

/-- V-MAP-2: the byte before each base matches nothing. -/
theorem test_decode_before_bases :
    [0x1effffff#32, 0x1f800fff#32, 0x1f80105f#32, 0x1f80106f#32, 0x1f80107f#32, 0x1f80180f#32, 0x1f801bff#32, 0x1f801fff#32,
      0x1fbfffff#32, 0xfffe012f#32].all
        (fun a => decode (.load .byte a) == .ok (.loadUnmapped .byte a) &&
          decode (.store a (.byte 0)) == .ok (.storeUnmapped a (.byte 0))) = true := by decide

/-- The engine rows by the engine state and the channel's direction (R132, R224 to R230). -/
theorem test_select_block :
    selectEngine (engineAt .gpu ⟨0, 3, 0, 0x11000001#32⟩ (.block .gpu 0x1000#32 3#32) []) = some .engBlockGpuWord ∧
    selectEngine (engineAt .spu ⟨0, 1, 0, 0x11000001#32⟩ (.block .spu 0x1000#32 1#32) []) = some .engBlockFromRamFatal ∧
    selectEngine (engineAt .otc ⟨0, 4, 0, 0x11000002#32⟩ (.block .otc 0x110#32 4#32) []) = some .engBlockOtcWord ∧
    selectEngine (engineAt .mdecIn ⟨0, 1, 0, 0x11000000#32⟩ (.block .mdecIn 0x0#32 1#32) []) = some .engBlockToRamFatal ∧
    selectEngine (engineAt .spu ⟨0, 0, 0, 0x11000001#32⟩ (.block .spu 0x0#32 0#32) []) = some .engBlockDone := by decide

/-- The list rows by the engine state and the header (R254 to R259; V-LL-1, V-LL-2). -/
theorem test_select_list :
    selectEngine (State.reset.setEng (.listHeader 0x1000#32)) = some .engListHeader ∧
    selectEngine (State.reset.setEng (.listPayload 0x1000#32 2#8 0x02001100#32)) = some .engListWord ∧
    selectEngine (State.reset.setEng (.listPayload 0x1008#32 0#8 0x02001100#32)) = some .engListNext ∧
    selectEngine (State.reset.setEng (.listPayload 0x1104#32 0#8 0x01800000#32)) = some .engListEnd ∧
    selectEngine State.reset = none := by decide

/-! ### Bus loads and stores (V-LS, V-CC, V-MC, V-MAP) -/

/-- The memory of V-LS. -/
def vls : State :=
  { State.reset with
    ram := [(0x100, 0x11#8), (0x101, 0x22#8), (0x102, 0x33#8), (0x103, 0x44#8)]
    bios := [(0, 0x13#8), (1, 0x00#8), (2, 0x08#8), (3, 0x3c#8)] }

theorem test_loadRam_word : gives (exec (.loadRam .word 0x80000100#32) vls) (.word 0x44332211#32) = true := by decide

theorem test_loadRam_half : gives (exec (.loadRam .half 0xa0000102#32) vls) (.half 0x4433#16) = true := by decide

theorem test_loadBios : gives (exec (.loadBios .word 0xbfc00000#32) vls) (.word 0x3c080013#32) = true := by decide

theorem test_loadIrq : gives (exec (.loadIrq .half 0x1f801074#32) vls) (.half 0#16) = true := by decide

theorem test_loadTimers : gives (exec (.loadTimers .half 0x1f801128#32) vls) (.half 0#16) = true := by decide

theorem test_loadSpu : gives (exec (.loadSpu .half 0x1f801e7e#32) vls) (.half 0#16) = true := by decide

theorem test_loadExp1_byte : gives (exec (.loadExp1 .byte 0x1f000084#32) vls) (.byte 0xff#8) = true := by decide

theorem test_loadExp1_word : gives (exec (.loadExp1 .word 0x1f07fffc#32) vls) (.word 0xffffffff#32) = true := by decide

/-- The value is free; the call is recorded. -/
theorem test_loadGpu :
    answers (exec (.loadGpu .word 0x1f801814#32) vls) (fun t => t.gpuTrace == [.gpuLoad 4#32 .word] && t.halt == none) = true := by
  decide

theorem test_loadDma : gives (exec (.loadDma .word 0xbf8010a4#32) busyBoard) (.word 0x00320031#32) = true := by decide

/-- V-REG: a halfword load of a DMA register halts F4. -/
theorem test_loadDma_width :
    halts (exec (.loadDma .half 0x1f8010a8#32) busyBoard) (.dmaAccessWidth .load 0x28#7 .half) = true := by decide

/-- V-MAP-4: cache control cannot be read. -/
theorem test_loadUnmapped :
    halts (exec (.loadUnmapped .word 0xfffe0130#32) vls) (.unmappedLoad 0xfffe0130#32 0xfffe0130#32 .word) = true := by decide

theorem test_storeRam_byte :
    answers (exec (.storeRam 0x80000101#32 (.byte 0xaa#8)) vls) (fun t => t.ramWord 0x100#32 == 0x4433aa11#32) = true := by
  decide

/-- The last word of RAM. -/
theorem test_storeRam_top :
    answers (exec (.storeRam 0xa01ffffc#32 (.word 0xcafef00d#32)) vls)
      (fun t => t.ramWord 0x1ffffc#32 == 0xcafef00d#32 && Memory.wf t.ram Config.ramSize) = true := by decide

theorem test_storeIrq : stored (exec (.storeIrq 0x1f801074#32 (.word 0xffffffff#32)) vls) = true := by decide

theorem test_storeTimers : stored (exec (.storeTimers 0x1f801100#32 (.half 1#16)) vls) = true := by decide

theorem test_storeSpu : stored (exec (.storeSpu 0x1f801d80#32 (.half 0x3fff#16)) vls) = true := by decide

theorem test_storeRamSize : stored (exec (.storeRamSize 0x1f801060#32 (.word 0xb88#32)) vls) = true := by decide

theorem test_storeExp2 : stored (exec (.storeExp2 0x1f802041#32 (.byte 0x0c#8)) vls) = true := by decide

theorem test_storeGpu :
    answers (exec (.storeGpu 0x1f801810#32 (.word 0xe1000000#32)) vls)
      (fun t => t.gpuTrace == [.gpuStore 0#32 (.word 0xe1000000#32)]) = true := by decide

theorem test_storeCacheCtl :
    answers (exec (.storeCacheCtl 0xfffe0130#32 (.word 0x0001e988#32)) vls)
      (fun t => t.cacheControl == 0x0001e988#32 && t.icacheEnabled && !t.tagTestMode) = true := by decide

theorem test_storeCacheCtl_narrow :
    halts (exec (.storeCacheCtl 0xfffe0131#32 (.byte 8#8)) vls) (.cacheControlWidth 0xfffe0131#32 .byte) = true := by decide

/-- The two constants swapped. -/
theorem test_storeMemCtl_mismatch :
    halts (exec (.storeMemCtl 0x1f801004#32 (.word 0x1f000000#32)) vls)
      (.expansionBaseMismatch 0x1f801004#32 4#32 0x1f000000#32) = true := by decide

/-- Offset 6 is not checked. -/
theorem test_storeMemCtl_unchecked : stored (exec (.storeMemCtl 0x1f801006#32 (.byte 0x80#8)) vls) = true := by decide

theorem test_storeDma :
    answers (exec (.storeDma 0xbf8010f0#32 (.word 0x076f4321#32)) vls) (fun t => t.dma.control == 0x076f4321#32) = true := by
  decide

/-- R298: the width is checked before the offset, F4 and not F5. -/
theorem test_storeDma_width :
    halts (exec (.storeDma 0x1f80108c#32 (.byte 0#8)) vls) (.dmaAccessWidth .store 0x0c#7 .byte) = true := by decide

/-- V-MAP-4: BIOS cannot be written. -/
theorem test_storeUnmapped :
    halts (exec (.storeUnmapped 0xbfc00000#32 (.word 0#32)) vls) (.unmappedStore 0xbfc00000#32 0x1fc00000#32 (.word 0#32)) = true := by
  decide

/-- R304 (a), (b), and a term no decoding gives. -/
theorem test_refusals :
    refuses (exec (.loadRam .half 0x101#32) vls) .misaligned = true ∧
    refuses (exec (.loadRam .word 0x100#32) { vls with halt := some (.dmaListPort .otc) }) .notAccepted = true ∧
    refuses (exec (.loadRam .word 0x1fc00000#32) vls) .wrongTarget = true ∧
    refuses (exec .engListWord vls) .notSelected = true := by decide

/-! ### DMA registers (V-REG) -/

/-- Each channel answers its own register (R110). -/
theorem test_rdBase :
    gives (exec .rdBaseMdecIn busyBoard) (.word 0x00000010#32) = true ∧
    gives (exec .rdBaseMdecOut busyBoard) (.word 0x00000020#32) = true ∧
    gives (exec .rdBaseGpu busyBoard) (.word 0x00000030#32) = true ∧
    gives (exec .rdBaseCdRom busyBoard) (.word 0x00000040#32) = true ∧
    gives (exec .rdBaseSpu busyBoard) (.word 0x00000050#32) = true ∧
    gives (exec .rdBasePio busyBoard) (.word 0x00000060#32) = true ∧
    gives (exec .rdBaseOtc busyBoard) (.word 0x00000070#32) = true := by decide

/-- Each channel answers its own register (R110). -/
theorem test_rdBlock :
    gives (exec .rdBlockMdecIn busyBoard) (.word 0x00120011#32) = true ∧
    gives (exec .rdBlockMdecOut busyBoard) (.word 0x00220021#32) = true ∧
    gives (exec .rdBlockGpu busyBoard) (.word 0x00320031#32) = true ∧
    gives (exec .rdBlockCdRom busyBoard) (.word 0x00420041#32) = true ∧
    gives (exec .rdBlockSpu busyBoard) (.word 0x00520051#32) = true ∧
    gives (exec .rdBlockPio busyBoard) (.word 0x00620061#32) = true ∧
    gives (exec .rdBlockOtc busyBoard) (.word 0x00720071#32) = true := by decide

/-- Each channel answers its own register (R110). -/
theorem test_rdChctl :
    gives (exec .rdChctlMdecIn busyBoard) (.word 0x2#32) = true ∧
    gives (exec .rdChctlMdecOut busyBoard) (.word 0x0#32) = true ∧
    gives (exec .rdChctlGpu busyBoard) (.word 0x401#32) = true ∧
    gives (exec .rdChctlCdRom busyBoard) (.word 0x200#32) = true ∧
    gives (exec .rdChctlSpu busyBoard) (.word 0x201#32) = true ∧
    gives (exec .rdChctlPio busyBoard) (.word 0x1#32) = true ∧
    gives (exec .rdChctlOtc busyBoard) (.word 0x3#32) = true := by decide

theorem test_rdDmactl : gives (exec .rdDmactl busyBoard) (.word 0x076f4321#32) = true := by decide

theorem test_rdDmairq : gives (exec .rdDmairq busyBoard) (.word 0x00840000#32) = true := by decide

theorem test_rdReserved : halts (exec (.rdReserved 0x2c#7) busyBoard) (.dmaBadRegister .load 0x2c#7) = true := by decide

/-- Each write changes its own channel's register and no other (V-REG). -/
theorem test_wrBase :
    answers (exec (.wrBaseMdecIn 0x80123457#32) busyBoard)
      (fun t => t.dma.ch == { sevenChannels with mdecIn := { sevenChannels.mdecIn with base := 0x80123457#32 } }) = true ∧
    answers (exec (.wrBaseMdecOut 0x80123457#32) busyBoard)
      (fun t => t.dma.ch == { sevenChannels with mdecOut := { sevenChannels.mdecOut with base := 0x80123457#32 } }) = true ∧
    answers (exec (.wrBaseGpu 0x80123457#32) busyBoard)
      (fun t => t.dma.ch == { sevenChannels with gpu := { sevenChannels.gpu with base := 0x80123457#32 } }) = true ∧
    answers (exec (.wrBaseCdRom 0x80123457#32) busyBoard)
      (fun t => t.dma.ch == { sevenChannels with cdRom := { sevenChannels.cdRom with base := 0x80123457#32 } }) = true ∧
    answers (exec (.wrBaseSpu 0x80123457#32) busyBoard)
      (fun t => t.dma.ch == { sevenChannels with spu := { sevenChannels.spu with base := 0x80123457#32 } }) = true ∧
    answers (exec (.wrBasePio 0x80123457#32) busyBoard)
      (fun t => t.dma.ch == { sevenChannels with pio := { sevenChannels.pio with base := 0x80123457#32 } }) = true ∧
    answers (exec (.wrBaseOtc 0x80123457#32) busyBoard)
      (fun t => t.dma.ch == { sevenChannels with otc := { sevenChannels.otc with base := 0x80123457#32 } }) = true := by decide

/-- Each write changes its own channel's register and no other (V-REG). -/
theorem test_wrBlock :
    answers (exec (.wrBlockMdecIn 0x00040010#32) busyBoard)
      (fun t => t.dma.ch == { sevenChannels with mdecIn := { sevenChannels.mdecIn with blockSize := 0x0010#16, blockCount := 0x0004#16 } }) = true ∧
    answers (exec (.wrBlockMdecOut 0x00040010#32) busyBoard)
      (fun t => t.dma.ch == { sevenChannels with mdecOut := { sevenChannels.mdecOut with blockSize := 0x0010#16, blockCount := 0x0004#16 } }) = true ∧
    answers (exec (.wrBlockGpu 0x00040010#32) busyBoard)
      (fun t => t.dma.ch == { sevenChannels with gpu := { sevenChannels.gpu with blockSize := 0x0010#16, blockCount := 0x0004#16 } }) = true ∧
    answers (exec (.wrBlockCdRom 0x00040010#32) busyBoard)
      (fun t => t.dma.ch == { sevenChannels with cdRom := { sevenChannels.cdRom with blockSize := 0x0010#16, blockCount := 0x0004#16 } }) = true ∧
    answers (exec (.wrBlockSpu 0x00040010#32) busyBoard)
      (fun t => t.dma.ch == { sevenChannels with spu := { sevenChannels.spu with blockSize := 0x0010#16, blockCount := 0x0004#16 } }) = true ∧
    answers (exec (.wrBlockPio 0x00040010#32) busyBoard)
      (fun t => t.dma.ch == { sevenChannels with pio := { sevenChannels.pio with blockSize := 0x0010#16, blockCount := 0x0004#16 } }) = true ∧
    answers (exec (.wrBlockOtc 0x00040010#32) busyBoard)
      (fun t => t.dma.ch == { sevenChannels with otc := { sevenChannels.otc with blockSize := 0x0010#16, blockCount := 0x0004#16 } }) = true := by decide

/-- Each write changes its own channel's register and no other (V-REG; enabled, manual, not triggered: no transfer). -/
theorem test_wrChctl :
    answers (exec (.wrChctlMdecIn 0x01000001#32) busyBoard)
      (fun t => t.dma.ch == { sevenChannels with mdecIn := { sevenChannels.mdecIn with control := 0x01000001#32 } }) = true ∧
    answers (exec (.wrChctlMdecOut 0x01000001#32) busyBoard)
      (fun t => t.dma.ch == { sevenChannels with mdecOut := { sevenChannels.mdecOut with control := 0x01000001#32 } }) = true ∧
    answers (exec (.wrChctlGpu 0x01000001#32) busyBoard)
      (fun t => t.dma.ch == { sevenChannels with gpu := { sevenChannels.gpu with control := 0x01000001#32 } }) = true ∧
    answers (exec (.wrChctlCdRom 0x01000001#32) busyBoard)
      (fun t => t.dma.ch == { sevenChannels with cdRom := { sevenChannels.cdRom with control := 0x01000001#32 } }) = true ∧
    answers (exec (.wrChctlSpu 0x01000001#32) busyBoard)
      (fun t => t.dma.ch == { sevenChannels with spu := { sevenChannels.spu with control := 0x01000001#32 } }) = true ∧
    answers (exec (.wrChctlPio 0x01000001#32) busyBoard)
      (fun t => t.dma.ch == { sevenChannels with pio := { sevenChannels.pio with control := 0x01000001#32 } }) = true ∧
    answers (exec (.wrChctlOtc 0x01000001#32) busyBoard)
      (fun t => t.dma.ch == { sevenChannels with otc := { sevenChannels.otc with control := 0x01000001#32 } }) = true := by decide

theorem test_wrDmactl :
    answers (exec (.wrDmactl 0x0#32) busyBoard) (fun t => t.dma.control == 0x0#32 && t.dma.ch == sevenChannels) = true := by
  decide

theorem test_wrDmairq :
    answers (exec (.wrDmairq 0xffffffff#32) busyBoard) (fun t => t.dma.interrupt == 0xffffffff#32) = true := by decide

theorem test_wrReserved : halts (exec (.wrReserved 0x78#7 0#32) busyBoard) (.dmaBadRegister .store 0x78#7) = true := by decide

/-- V-REG: sync field 3 halts F6, the register unchanged (R196). -/
theorem test_wrChctl_sync3 :
    answers (exec (.wrChctlOtc 0x01000600#32) busyBoard) (fun t =>
      t.halt == some (.dmaUnknownSyncMode .otc 0x01000600#32) && t.dma.ch == sevenChannels) = true := by decide

/-- The store of P1 starts the block transfer inside the write. -/
theorem test_wrChctl_starts_block :
    answers (exec (.wrChctlOtc 0x11000002#32) (State.reset.setCh .otc ⟨0x110#32, 4#16, 0#16, 0#32⟩)) (fun t =>
      t.eng == .block .otc 0x110#32 4#32 && t.reply == none && (t.ch .otc).control == 0x11000002#32) = true := by decide

/-- V-REG: the size of 0x00040010 is 16 in manual and 64 in request mode. -/
theorem test_transferSize :
    transferSize ⟨0#32, 0x10#16, 4#16, 0x00000000#32⟩ = some 16#32 ∧
    transferSize ⟨0#32, 0x10#16, 4#16, 0x00000200#32⟩ = some 64#32 ∧
    transferSize ⟨0#32, 0x10#16, 4#16, 0x00000400#32⟩ = none := by decide

/-- The active table of V-REG. -/
theorem test_active :
    [0x00000000#32, 0x10000000#32, 0x01000000#32, 0x00000200#32, 0x10000200#32, 0x00000400#32, 0x10000400#32].all
      (fun c => activeOf c == false) = true ∧
    [0x11000000#32, 0x01000200#32, 0x11000200#32, 0x01000400#32, 0x11000400#32].all (fun c => activeOf c) = true := by decide

/-- The done values of V-REG. -/
theorem test_doneControl :
    doneControl 0x11000002#32 = 0x00000002#32 ∧ doneControl 0x01000401#32 = 0x00000401#32 ∧
    doneControl 0xfffffbff#32 = 0xeefffbff#32 := by decide

/-! ### The engine (V-BLK, V-LL) -/

theorem test_engBlockStart :
    answers (exec (.engBlockStart .gpu) (State.reset.setCh .gpu ⟨0x80001000#32, 2#16, 3#16, 0x01000201#32⟩)) (fun t =>
      t.eng == .block .gpu 0x80001000#32 6#32) = true := by decide

/-- V-LL-6: the cursor is the base reduced to the window. -/
theorem test_engListStart :
    answers (exec (.engListStart .gpu) (State.reset.setCh .gpu ⟨0xa0001003#32, 0#16, 0#16, 0x01000401#32⟩)) (fun t =>
      t.eng == .listHeader 0x1000#32) = true := by decide

/-- V-LL-11: the fatal starts; the port is checked first. -/
theorem test_engListStart_fatal :
    halts (exec (.engListStart .mdecIn) (State.reset.setCh .mdecIn ⟨0#32, 0#16, 0#16, 0x01000400#32⟩)) (.dmaListPort .mdecIn) = true ∧
    halts (exec (.engListStart .gpu) (State.reset.setCh .gpu ⟨0#32, 0#16, 0#16, 0x01000400#32⟩)) (.dmaListDirection .gpu) = true := by
  decide

/-- V-BLK-8: the word before the wrap. -/
theorem test_engBlockGpuWord_wrap :
    answers (exec .engBlockGpuWord
      (engineAt .gpu ⟨0x1ffff8#32, 3#16, 0#16, 0x11000001#32⟩ (.block .gpu 0x00200000#32 1#32) [(0#32, 0xe3000000#32)])) (fun t =>
      t.gpuTrace == [.gp0 0xe3000000#32] && t.eng == .block .gpu 0x00200004#32 0#32) = true := by decide

/-- V-BLK-9: decrement. -/
theorem test_engBlockGpuWord_decrement :
    answers (exec .engBlockGpuWord
      (engineAt .gpu ⟨0x2008#32, 3#16, 0#16, 0x11000003#32⟩ (.block .gpu 0x2008#32 3#32) [(0x2008#32, 0xe1000400#32)])) (fun t =>
      t.gpuTrace == [.gp0 0xe1000400#32] && t.eng == .block .gpu 0x2004#32 2#32) = true := by decide

/-- V-BLK-3: the pointer of an unaligned base keeps its low bits. -/
theorem test_engBlockOtcWord_unaligned :
    answers (exec .engBlockOtcWord (engineAt .otc ⟨0x10e#32, 2#16, 0#16, 0x11000002#32⟩ (.block .otc 0x10e#32 2#32) [])) (fun t =>
      t.ramWord 0x10c#32 == 0x0000010a#32 && t.eng == .block .otc 0x10a#32 1#32) = true := by decide

/-- V-BLK-2: the last word, across address 0. -/
theorem test_engBlockOtcWord_last :
    answers (exec .engBlockOtcWord (engineAt .otc ⟨4#32, 3#16, 0#16, 0x11000002#32⟩ (.block .otc 0xfffffffc#32 1#32) [])) (fun t =>
      t.ramWord 0x1ffffc#32 == 0x00ffffff#32 && t.gpuTrace == []) = true := by decide

/-- V-BLK-12. -/
theorem test_engBlockFromRamFatal :
    halts (exec .engBlockFromRamFatal (engineAt .otc ⟨0#32, 1#16, 0#16, 0x11000003#32⟩ (.block .otc 0#32 1#32) []))
      (.dmaBlockDestPort .otc) = true := by decide

/-- V-BLK-12. -/
theorem test_engBlockToRamFatal :
    halts (exec .engBlockToRamFatal (engineAt .gpu ⟨0#32, 1#16, 0#16, 0x11000000#32⟩ (.block .gpu 0#32 1#32) []))
      (.dmaBlockSourcePort .gpu) = true := by decide

/-- V-BLK-11: a zero count on an unimplemented port is done. -/
theorem test_engBlockDone :
    answers (exec .engBlockDone (engineAt .spu ⟨0#32, 0#16, 0#16, 0x11000001#32⟩ (.block .spu 0#32 0#32) [])) (fun t =>
      (t.ch .spu).control == 0x00000001#32 && t.eng == .idle && t.reply == some .stored) = true := by decide

theorem test_engListHeader :
    answers (exec .engListHeader (engineAt .gpu ⟨0x1000#32, 0#16, 0#16, 0x01000401#32⟩ (.listHeader 0x1000#32)
      [(0x1000#32, 0x02001100#32)])) (fun t => t.eng == .listPayload 0x1000#32 2#8 0x02001100#32 && t.gpuTrace == []) = true := by
  decide

/-- V-LL-7: the payload address wraps to 0. -/
theorem test_engListWord :
    answers (exec .engListWord (engineAt .gpu ⟨0xffffffff#32, 0#16, 0#16, 0x01000401#32⟩
      (.listPayload 0x1ffffc#32 1#8 0x01800000#32) [(0#32, 0x12345678#32)])) (fun t =>
      t.gpuTrace == [.gp0 0x12345678#32] && t.eng == .listPayload 0#32 0#8 0x01800000#32) = true := by decide

/-- V-LL-3: bit 31 does not end a list. -/
theorem test_engListNext :
    answers (exec .engListNext (engineAt .gpu ⟨0x1000#32, 0#16, 0#16, 0x01000401#32⟩
      (.listPayload 0x1304#32 0#8 0x81000000#32) [])) (fun t => t.eng == .listHeader 0#32) = true := by decide

/-- V-LL-2 and V-LL-9: bit 23 alone ends it; both bits are cleared. -/
theorem test_engListEnd :
    answers (exec .engListEnd (engineAt .gpu ⟨0x1000#32, 0#16, 0#16, 0x11000401#32⟩
      (.listPayload 0x1104#32 0#8 0x01800000#32) [])) (fun t =>
      (t.ch .gpu).control == 0x00000401#32 && t.eng == .idle && t.reply == some .stored) = true := by decide

/-! ### The step -/

/-- From reset with nothing placed a step waits (log entry 4). -/
theorem test_step_reset_waits :
    answers (step State.reset) (fun t => t.halt == none && t.reply == none && t.requests == []) = true := by decide

/-- A table word runs as the first operation after reset, from its own placing (log entries 19, 25). -/
theorem test_step_fetchWord :
    gives (step (State.reset.withFetchWord 32 0x1f000000)) (.word 0xffffffff#32) = true ∧
    gives (step (State.reset.withFetchWord 8 0x60)) (.word 0#32) = true ∧
    halts (step (State.reset.withFetchWord 8 0x7c)) (.dmaBadRegister .load 0x7c#7) = true ∧
    stored (step (State.reset.withFetchWord 32 0x1f802000)) = true := by decide

/-- While the engine runs, the queue waits (R6). -/
theorem test_step_engine_first :
    answers (step { State.reset.setEng (.block .spu 0#32 0#32) with requests := [.dmaRead 0x70#7] })
      (fun t => t.eng == .idle && t.requests == [.dmaRead 0x70#7]) = true := by decide

/-! ### Witnesses: for each statement with hypotheses, operands and a state that meet them, clause by clause, at the edges -/

/-- The last and the first address of each region. -/
theorem test_witness_MaskRegionUsesTheTable :
    ((0x7fffffff#32 : Word).toNat < 0x80000000 ∧ maskRegion 0x7fffffff#32 = 0x7fffffff#32) ∧
    (0x80000000 ≤ (0x80000000#32 : Word).toNat ∧ maskRegion 0x80000000#32 = 0#32 ∧ maskRegion 0x9fffffff#32 = 0x1fffffff#32) ∧
    (0xa0000000 ≤ (0xa0000000#32 : Word).toNat ∧ maskRegion 0xa0000000#32 = 0#32 ∧ maskRegion 0xbfffffff#32 = 0x1fffffff#32) ∧
    (0xc0000000 ≤ (0xc0000000#32 : Word).toNat ∧ maskRegion 0xc0000000#32 = 0xc0000000#32 ∧
      maskRegion 0xffffffff#32 = 0xffffffff#32) := by decide

theorem test_witness_MaskRegionFoldsTheMirrors :
    ((0x001fffff#32 : Word).toNat < 0x00200000 ∧ maskRegion 0x001fffff#32 = 0x001fffff#32) ∧
    (0x80000000 ≤ (0x801fffff#32 : Word).toNat ∧ (0x801fffff#32 : Word).toNat < 0x80200000 ∧
      maskRegion 0x801fffff#32 = 0x001fffff#32) ∧
    (0xa0000000 ≤ (0xa0000000#32 : Word).toNat ∧ (0xa0000000#32 : Word).toNat < 0xa0200000 ∧ maskRegion 0xa0000000#32 = 0#32) := by
  decide

/-- The end of DMA is the base of Timers. -/
theorem test_witness_RangesArePairwiseDisjoint :
    Target.dma ≠ Target.timers ∧ Target.dma.range.contains 0x1f801100#32 = none ∧
    Target.timers.range.contains 0x1f801100#32 = some 0#32 ∧ Target.dma.range.contains 0x1f8010ff#32 = some 127#32 ∧
    lookup loadTargets 0x1f801100#32 = some .timers := by decide

/-- The first and the last address of the first gap, and the last gap's edges. -/
theorem test_witness_UnmappedGapsAreExactlyTheEleven :
    State.reset.ready ∧ aligned .byte 0xa0200000#32 = true ∧ aligned (Value.byte 0#8).width 0xa0200000#32 = true ∧
    inGap (maskRegion 0xa0200000#32).toNat ∧ inGap 0x1effffff ∧ inGap 0xffffffff ∧ ¬ inGap 0xfffe0133 := by
  refine ⟨⟨rfl, rfl⟩, by decide, by decide, .inl (by decide), .inl (by decide), ?_, ?_⟩ <;> unfold inGap <;> omega

/-- The last word of RAM, and its first. -/
theorem test_witness_MixedWidthsSeeTheSameBytes :
    State.reset.ready ∧ aligned .word 0xa01ffffc#32 = true ∧ maskedIn 0 0x200000 0xa01ffffc#32 ∧
    aligned .word 0#32 = true ∧ maskedIn 0 0x200000 0#32 := by unfold State.ready maskedIn; decide

theorem test_witness_MemoryLoadsReturnTheBytes :
    State.reset.ready ∧ (aligned .word 0x001ffffc#32 = true ∧ maskedIn 0 0x200000 0x001ffffc#32) ∧
    (aligned .byte 0xbfc7ffff#32 = true ∧ maskedIn 0x1fc00000 0x80000 0xbfc7ffff#32) := by unfold State.ready maskedIn; decide

/-- The last byte of each range. -/
theorem test_witness_StubLoadsAnswerTheirConstant :
    State.reset.ready ∧ (aligned .byte 0x9f801077#32 = true ∧ maskedIn 0x1f801070 8 0x9f801077#32) ∧
    (aligned .byte 0x1f80112f#32 = true ∧ maskedIn 0x1f801100 48 0x1f80112f#32) ∧
    (aligned .byte 0x1f801e7f#32 = true ∧ maskedIn 0x1f801c00 640 0x1f801e7f#32) ∧
    (aligned .byte 0x1f07ffff#32 = true ∧ maskedIn 0x1f000000 0x80000 0x1f07ffff#32) := by unfold State.ready maskedIn; decide

/-- The window's last word, for a load and a store. -/
theorem test_witness_LoadGpuRecordsTheCallAndAnswersAnyValue :
    State.reset.ready ∧ aligned .word 0x1f801814#32 = true ∧ maskedIn 0x1f801810 8 0x1f801814#32 := by
  unfold State.ready maskedIn; decide

theorem test_witness_StoreGpuRecordsTheCall :
    State.reset.ready ∧ aligned (Value.byte 1#8).width 0x1f801817#32 = true ∧ maskedIn 0x1f801810 8 0x1f801817#32 := by
  unfold State.ready maskedIn; decide

/-- The address after RAM, and cache control, which no load range holds. -/
theorem test_witness_LoadUnmappedHaltsWithF1 :
    State.reset.ready ∧ aligned .word 0xfffe0130#32 = true ∧
    ¬ maskedIn 0 0x200000 0xfffe0130#32 ∧ ¬ maskedIn 0x1fc00000 0x80000 0xfffe0130#32 ∧ ¬ maskedIn 0x1f801070 8 0xfffe0130#32 ∧
    ¬ maskedIn 0x1f801080 128 0xfffe0130#32 ∧ ¬ maskedIn 0x1f801810 8 0xfffe0130#32 ∧ ¬ maskedIn 0x1f801100 48 0xfffe0130#32 ∧
    ¬ maskedIn 0x1f801c00 640 0xfffe0130#32 ∧ ¬ maskedIn 0x1f000000 0x80000 0xfffe0130#32 := by
  unfold State.ready maskedIn; decide

theorem test_witness_StoreUnmappedHaltsWithF2 :
    State.reset.ready ∧ aligned (Value.word 0#32).width 0xbfc00000#32 = true ∧
    ¬ maskedIn 0 0x200000 0xbfc00000#32 ∧ ¬ maskedIn 0x1f801070 8 0xbfc00000#32 ∧ ¬ maskedIn 0x1f801080 128 0xbfc00000#32 ∧
    ¬ maskedIn 0x1f801810 8 0xbfc00000#32 ∧ ¬ maskedIn 0x1f801100 48 0xbfc00000#32 ∧ ¬ maskedIn 0x1f801c00 640 0xbfc00000#32 ∧
    ¬ maskedIn 0xfffe0130 4 0xbfc00000#32 ∧ ¬ maskedIn 0x1f801000 36 0xbfc00000#32 ∧ ¬ maskedIn 0x1f801060 4 0xbfc00000#32 ∧
    ¬ maskedIn 0x1f802000 66 0xbfc00000#32 := by unfold State.ready maskedIn; decide

/-- A word load of the last channel register, a byte load of the last byte, a halfword store. -/
theorem test_witness_LoadDmaRunsTheRegisterRead :
    State.reset.ready ∧
    (aligned .word 0xbf8010e8#32 = true ∧ maskedIn 0x1f801080 128 0xbf8010e8#32 ∧
      regSel ((maskRegion 0xbf8010e8#32 - 0x1f801080#32).setWidth 7) ≠ .reserved) ∧
    (Width.byte ≠ .word ∧ aligned .byte 0x1f8010ff#32 = true ∧ maskedIn 0x1f801080 128 0x1f8010ff#32) ∧
    ((Value.half 1#16).width ≠ .word ∧ aligned (Value.half 1#16).width 0x1f801080#32 = true ∧
      maskedIn 0x1f801080 128 0x1f801080#32) := by unfold State.ready maskedIn; decide

theorem test_witness_StoreDmaRunsTheRegisterWrite :
    State.reset.ready ∧ (aligned .word 0x1f8010f4#32 = true ∧ maskedIn 0x1f801080 128 0x1f8010f4#32 ∧
      regSel ((maskRegion 0x1f8010f4#32 - 0x1f801080#32).setWidth 7) = .dmaIrq) ∧
    regSel ((maskRegion 0x1f8010f0#32 - 0x1f801080#32).setWidth 7) = .dmaCtl ∧
    (regSel ((maskRegion 0x1f801080#32 - 0x1f801080#32).setWidth 7) = .channel .mdecIn .base ∧
      State.reset.active .mdecIn = false) ∧
    (regSel ((maskRegion 0x1f8010e8#32 - 0x1f801080#32).setWidth 7) = .channel .otc .chctl ∧
      syncField 0x01000001#32 ≠ 3#2 ∧ activeOf 0x01000001#32 = false) := by unfold State.ready maskedIn; decide

theorem test_witness_StoreRamChangesExactlyItsBytes :
    State.reset.ready ∧ aligned (Value.half 0xbeef#16).width 0xa01ffffe#32 = true ∧ maskedIn 0 0x200000 0xa01ffffe#32 := by
  unfold State.ready maskedIn; decide

theorem test_witness_StubStoresAreDropped :
    State.reset.ready ∧ (aligned (Value.byte 1#8).width 0x1f801077#32 = true ∧ maskedIn 0x1f801070 8 0x1f801077#32) ∧
    (aligned (Value.half 1#16).width 0x1f80112e#32 = true ∧ maskedIn 0x1f801100 48 0x1f80112e#32) ∧
    (aligned (Value.word 1#32).width 0x1f801e7c#32 = true ∧ maskedIn 0x1f801c00 640 0x1f801e7c#32) ∧
    (aligned (Value.byte 1#8).width 0x1f801063#32 = true ∧ maskedIn 0x1f801060 4 0x1f801063#32) ∧
    (aligned (Value.byte 1#8).width 0x1f802041#32 = true ∧ maskedIn 0x1f802000 66 0x1f802041#32) := by
  unfold State.ready maskedIn; decide

theorem test_witness_StoreCacheCtlIsWordOnly :
    State.reset.ready ∧ (aligned (Value.word 0x804#32).width 0xfffe0130#32 = true ∧ maskedIn 0xfffe0130 4 0xfffe0130#32) ∧
    (aligned (Value.byte 8#8).width 0xfffe0133#32 = true ∧ maskedIn 0xfffe0130 4 0xfffe0133#32 ∧ (Value.byte 8#8).width ≠ .word) := by
  unfold State.ready maskedIn; decide

/-- The three outcomes; the last byte of the range is not checked, nor offset 0 with the accepted value. -/
theorem test_witness_StoreMemCtlChecksTheExpansionBases :
    State.reset.ready ∧
    (aligned (Value.half 0#16).width 0xbf801000#32 = true ∧ maskedIn 0x1f801000 36 0xbf801000#32 ∧
      maskRegion 0xbf801000#32 = 0x1f801000#32 ∧ asU32 (.half 0#16) ≠ 0x1f000000#32) ∧
    (aligned (Value.word 0#32).width 0x1f801004#32 = true ∧ maskedIn 0x1f801000 36 0x1f801004#32 ∧
      maskRegion 0x1f801004#32 = 0x1f801004#32 ∧ asU32 (.word 0#32) ≠ 0x1f802000#32) ∧
    (aligned (Value.byte 0#8).width 0x1f801023#32 = true ∧ maskedIn 0x1f801000 36 0x1f801023#32 ∧
      maskRegion 0x1f801023#32 ≠ 0x1f801000#32 ∧ maskRegion 0x1f801023#32 ≠ 0x1f801004#32) ∧
    (maskRegion 0x1f801000#32 = 0x1f801000#32 ∧ ¬ asU32 (.word 0x1f000000#32) ≠ 0x1f000000#32) := by
  unfold State.ready maskedIn; decide

/-- The register statements: an accepted operation with every channel inactive. -/
theorem test_witness_register_rows :
    State.reset.ready ∧ activeOf State.reset.dma.ch.mdecIn.control = false ∧ activeOf State.reset.dma.ch.mdecOut.control = false ∧
    activeOf State.reset.dma.ch.gpu.control = false ∧ activeOf State.reset.dma.ch.cdRom.control = false ∧
    activeOf State.reset.dma.ch.spu.control = false ∧ activeOf State.reset.dma.ch.pio.control = false ∧
    activeOf State.reset.dma.ch.otc.control = false := by unfold State.ready; decide

/-- Armed, manual: enabled and not triggered. -/
theorem test_witness_ControlWritesThatStartNothingStoreAllBits :
    State.reset.ready ∧ syncField 0x01000001#32 ≠ 3#2 ∧ activeOf 0x01000001#32 = false := by unfold State.ready; decide

theorem test_witness_ControlWritesStartBlockTransfers :
    State.reset.ready ∧ (activeOf 0x11000002#32 = true ∧ syncOf 0x11000002#32 = some .manual) ∧
    (activeOf 0x01000202#32 = true ∧ syncOf 0x01000202#32 = some .request) := by unfold State.ready; decide

theorem test_witness_ControlWritesStartListTransfers :
    State.reset.ready ∧
    (activeOf 0x01000401#32 = true ∧ syncOf 0x01000401#32 = some .linkedList ∧ directionOf 0x01000401#32 = .fromRam) ∧
    (activeOf 0x01000400#32 = true ∧ syncOf 0x01000400#32 = some .linkedList ∧ directionOf 0x01000400#32 = .toRam) ∧
    Port.otc ≠ .gpu := by unfold State.ready; decide

theorem test_witness_SyncModeThreeIsFatal : State.reset.ready ∧ syncField 0x01000600#32 = 3#2 := by unfold State.ready; decide

theorem test_witness_ReservedOffsetsAreFatal :
    State.reset.ready ∧ (0x0c#7 : BitVec 7) ∈ [0x0c#7, 0x1c#7, 0x2c#7, 0x3c#7, 0x4c#7, 0x5c#7, 0x6c#7, 0x78#7, 0x7c#7] ∧
    (0x7c#7 : BitVec 7) ∈ [0x0c#7, 0x1c#7, 0x2c#7, 0x3c#7, 0x4c#7, 0x5c#7, 0x6c#7, 0x78#7, 0x7c#7] := by unfold State.ready; decide

theorem test_witness_ActiveIsEnableAndTriggerInManualMode : syncOf 0x01000000#32 ≠ none ∧ syncOf 0x00000400#32 ≠ none := by decide

theorem test_witness_TransferSizeIsSizeOrProduct :
    syncOf 0x00000000#32 = some .manual ∧ syncOf 0x00000200#32 = some .request ∧ syncOf 0x00000400#32 = some .linkedList ∧
    transferSize ⟨0#32, 0xffff#16, 0xffff#16, 0x00000200#32⟩ = some 0xfffe0001#32 := by decide

/-- Every clause: a count of zero, no size, the two list outcomes, another port. -/
theorem test_witness_EngineStartsLoadTheEngineState :
    State.reset.ready ∧ transferSize (State.reset.ch .spu) = some 0#32 ∧
    (State.reset.setCh .gpu ⟨0#32, 0#16, 0#16, 0x01000401#32⟩).ready ∧
    transferSize ⟨0#32, 0#16, 0#16, 0x01000401#32⟩ = none ∧ directionOf 0x01000401#32 = .fromRam ∧
    directionOf (State.reset.ch .gpu).control = .toRam ∧ Port.pio ≠ .gpu := by unfold State.ready; decide

/-- The state of V-BLK-9's first word. -/
theorem test_witness_BlockGpuWordForwardsOneWord :
    let s := engineAt .gpu ⟨0x2008#32, 3#16, 0#16, 0x11000003#32⟩ (.block .gpu 0x2008#32 3#32) []
    s.halt = none ∧ s.eng = .block .gpu 0x2008#32 3#32 ∧ (3#32 : Word) ≠ 0#32 ∧ directionOf (s.ch .gpu).control = .fromRam := by
  decide

/-- The state of V-BLK-2's last word. -/
theorem test_witness_BlockOtcWordWritesOneTableEntry :
    let s := engineAt .otc ⟨4#32, 3#16, 0#16, 0x11000002#32⟩ (.block .otc 0xfffffffc#32 1#32) []
    s.halt = none ∧ s.eng = .block .otc 0xfffffffc#32 1#32 ∧ (1#32 : Word) ≠ 0#32 ∧ directionOf (s.ch .otc).control = .toRam := by
  decide

theorem test_witness_UnimplementedBlockPortsAreFatal :
    (let s := engineAt .spu ⟨0#32, 1#16, 0#16, 0x11000001#32⟩ (.block .spu 0#32 1#32) [];
      s.halt = none ∧ s.eng = .block .spu 0#32 1#32 ∧ (1#32 : Word) ≠ 0#32 ∧ directionOf (s.ch .spu).control = .fromRam ∧ Port.spu ≠ .gpu) ∧
    (let s := engineAt .gpu ⟨0#32, 1#16, 0#16, 0x11000000#32⟩ (.block .gpu 0#32 1#32) [];
      s.halt = none ∧ s.eng = .block .gpu 0#32 1#32 ∧ directionOf (s.ch .gpu).control = .toRam ∧ Port.gpu ≠ .otc) ∧
    (let s := engineAt .spu ⟨0#32, 0#16, 0#16, 0x11000001#32⟩ (.block .spu 0#32 0#32) [];
      s.halt = none ∧ s.eng = .block .spu 0#32 0#32) := by decide

theorem test_witness_BlockDoneMarksTheChannelDone :
    let s := engineAt .mdecIn ⟨0#32, 0#16, 0#16, 0x11000000#32⟩ (.block .mdecIn 0#32 0#32) []
    s.halt = none ∧ s.eng = .block .mdecIn 0#32 0#32 := by decide

theorem test_witness_ListStepsReadTheHeaderAndForwardTheWords :
    (let s := State.reset.setEng (.listHeader 0x1ffffc#32);
      s.halt = none ∧ s.eng = .listHeader 0x1ffffc#32) ∧
    (let s := State.reset.setEng (.listPayload 0x1ffffc#32 255#8 0xff800000#32);
      s.halt = none ∧ s.eng = .listPayload 0x1ffffc#32 255#8 0xff800000#32 ∧ (255#8 : Byte) ≠ 0#8) := by decide

theorem test_witness_ListEndTestIsBitTwentyThree :
    (let s := State.reset.setEng (.listPayload 0x1304#32 0#8 0xff7fffff#32);
      s.halt = none ∧ s.eng = .listPayload 0x1304#32 0#8 0xff7fffff#32 ∧ (0xff7fffff#32 &&& 0x00800000#32 : Word) = 0#32) ∧
    (let s := State.reset.setEng (.listPayload 0x1304#32 0#8 0x00800000#32);
      s.halt = none ∧ s.eng = .listPayload 0x1304#32 0#8 0x00800000#32 ∧ (0x00800000#32 &&& 0x00800000#32 : Word) ≠ 0#32) := by
  decide

theorem test_witness_StepRunsTheDecodedRequest :
    (let s := { State.reset with requests := [.load .word 0x1f801070#32] };
      s.ready ∧ s.requests = [.load .word 0x1f801070#32] ∧
        decode (.load .word 0x1f801070#32) = .ok (.loadIrq .word 0x1f801070#32)) ∧
    (State.reset.ready ∧ State.reset.requests = []) ∧ decodeTableWord 8 0x28 = some .rdChctlGpu := by unfold State.ready; decide

theorem test_witness_RunningEngineAlwaysSteps :
    let s := State.reset.setEng (.block .spu 0#32 1#32)
    s.halt = none ∧ s.eng ≠ .idle := by decide

theorem test_witness_HaltedBlockTakesNoStep :
    { State.reset with halt := some (.dmaListPort .otc) }.halt = some (.dmaListPort .otc) := by decide

theorem test_witness_MisalignedAndUnacceptedOperationsAreRefused :
    (let s := { State.reset with requests := [.load .half 0x101#32] };
      s.ready ∧ s.requests = [.load .half 0x101#32] ∧ (0x101#32 : Word).toNat % Width.half.bytes ≠ 0) ∧
    (let s := { State.reset with requests := [.store 0x102#32 (.word 0#32)] };
      s.ready ∧ s.requests = [.store 0x102#32 (.word 0#32)] ∧ (0x102#32 : Word).toNat % (Value.word 0#32).width.bytes ≠ 0) ∧
    (decode (.dmaRead 0x28#7) = .ok .rdChctlGpu ∧ (State.reset.setEng (.listHeader 0#32)).eng ≠ .idle) := by
  unfold State.ready; decide

theorem test_witness_DecodeInvertsEncode :
    (Instr.storeRam 0x801ffffe#32 (.half 0xbeef#16)).wf = true ∧
    encode (.storeRam 0x801ffffe#32 (.half 0xbeef#16)) = some (.store 0x801ffffe#32 (.half 0xbeef#16)) := by decide

theorem test_witness_DecodedInstructionsAreWellFormed :
    decode (.dmaWrite 0x7c#7 1#32) = .ok (.wrReserved 0x7c#7 1#32) ∧ (0x7d#7 : BitVec 7).toNat % 4 ≠ 0 := by decide

/-- The store that starts P1's transfer, as the next operation. -/
def startsClear : State :=
  { State.reset.setCh .otc ⟨0x110#32, 4#16, 0#16, 0#32⟩ with
    cacheControl := 0#32, requests := [.store 0x1f8010e8#32 (.word 0x11000002#32)] }

/-- A step that writes RAM. -/
theorem test_witness_EveryStepKeepsTheMemoryCanonical :
    let s := { State.reset with requests := [.store 0x1ffffc#32 (.word 1#32)] }
    MemoryInv s ∧ ∃ t, step s = .next t := by
  exact ⟨⟨rfl, rfl⟩, _, rfl⟩

/-- A step that starts a transfer. -/
theorem test_witness_NoChannelIsActiveBetweenOperations :
    (SyncInv startsClear ∧ QuietInv startsClear ∧ TransferInv startsClear) ∧ ∃ t, step startsClear = .next t :=
  ⟨⟨fun p => by cases p <;> decide, fun _ p => by cases p <;> decide, trivial⟩, _, rfl⟩

/-- A step of a running list and one that starts a transfer. -/
theorem test_witness_EngineAddressesStayInTheWindow :
    (let s := State.reset.setEng (.listHeader 0x1ffffc#32);
      WindowInv s ∧ ReplyInv s ∧ ∃ t, step s = .next t) ∧ WindowInv startsClear ∧ ReplyInv startsClear := by
  exact ⟨⟨show windowAddr 0x1ffffc#32 = 0x1ffffc#32 by decide, fun _ => rfl, _, rfl⟩, trivial, fun h => absurd rfl h⟩

/-- A step that changes cache control, and one that changes the interrupt register. -/
theorem test_witness_CacheControlAndBiosChangeOnlyAsStated :
    (let s := { startsClear with requests := [.store 0xfffe0130#32 (.word 0x804#32)] };
      ∃ t, step s = .next t ∧ t.cacheControl ≠ s.cacheControl) ∧
    (let s := { busyBoard with requests := [.dmaWrite 0x74#7 1#32] };
      ∃ t, step s = .next t ∧ t.dma.interrupt ≠ s.dma.interrupt) := by
  exact ⟨⟨_, rfl, by decide⟩, _, rfl, by decide⟩

/-- An Otc to-RAM step, an Otc from-RAM step, a step that is done, a list step. -/
theorem test_witness_TransfersLeaveTheRegisters :
    (let s := engineAt .otc ⟨0x110#32, 4#16, 0#16, 0x11000002#32⟩ (.block .otc 0x110#32 4#32) [];
      s.eng ≠ .idle ∧ directionOf (s.ch .otc).control = .toRam ∧ ∃ t, step s = .next t ∧ t.eng ≠ .idle) ∧
    (let s := engineAt .otc ⟨0#32, 1#16, 0#16, 0x11000003#32⟩ (.block .otc 0#32 1#32) [];
      s.eng ≠ .idle ∧ directionOf (s.ch .otc).control = .fromRam ∧ ∃ t, step s = .next t ∧ t.ram = s.ram) ∧
    (let s := engineAt .spu ⟨0#32, 0#16, 0#16, 0x11000001#32⟩ (.block .spu 0#32 0#32) [];
      s.eng.port? = some .spu ∧ s.eng.port? ≠ some .otc ∧ ∃ t, step s = .next t ∧ t.eng = .idle) ∧
    (let s := State.reset.setEng (.listHeader 0#32);
      s.eng.port? = some .gpu ∧ ∃ t, step s = .next t) :=
  ⟨⟨by decide, by decide, _, rfl, by decide⟩, ⟨by decide, by decide, _, rfl, rfl⟩, ⟨by decide, by decide, _, rfl, rfl⟩,
    by decide, _, rfl⟩

/-- A step that raises another fatal condition. -/
theorem test_witness_SizeIsNeverIndeterminate :
    let s := { State.reset with requests := [.dmaWrite 0x68#7 0x01000401#32] }
    ∃ t, step s = .next t ∧ t.halt = some (.dmaListPort .otc) := by
  exact ⟨_, rfl, by decide⟩

/-- A count of zero on Spu, one word on the video port, four on Otc, and the two fatal ports. -/
theorem test_witness_BlockStepsEqualTheLoop :
    (State.reset.ready ∧ transferSize (State.reset.ch .spu) = some 0#32) ∧
    (let s := State.reset.setCh .gpu ⟨0#32, 1#16, 0#16, 0x11000001#32⟩;
      s.ready ∧ transferSize (s.ch .gpu) = some 1#32 ∧ directionOf (s.ch .gpu).control = .fromRam) ∧
    (let s := State.reset.setCh .otc ⟨0x110#32, 4#16, 0#16, 0x11000002#32⟩;
      s.ready ∧ transferSize (s.ch .otc) = some 4#32 ∧ directionOf (s.ch .otc).control = .toRam) ∧
    (let s := State.reset.setCh .otc ⟨0#32, 1#16, 0#16, 0x11000003#32⟩;
      s.ready ∧ transferSize (s.ch .otc) = some 1#32 ∧ directionOf (s.ch .otc).control = .fromRam ∧ Port.otc ≠ .gpu) ∧
    (let s := State.reset.setCh .gpu ⟨0#32, 1#16, 0#16, 0x11000000#32⟩;
      s.ready ∧ transferSize (s.ch .gpu) = some 1#32 ∧ directionOf (s.ch .gpu).control = .toRam ∧ Port.gpu ≠ .otc) := by
  unfold State.ready; decide

theorem test_witness_BlockTransfersTerminate :
    (let s := engineAt .gpu ⟨0#32, 2#16, 0#16, 0x11000001#32⟩ (.block .gpu 0#32 2#32) [];
      s.halt = none ∧ s.eng = .block .gpu 0#32 2#32 ∧ directionOf (s.ch .gpu).control = .fromRam) ∧
    (let s := engineAt .otc ⟨0#32, 1#16, 0#16, 0x11000003#32⟩ (.block .otc 0#32 1#32) [];
      s.halt = none ∧ s.eng = .block .otc 0#32 1#32 ∧ (1#32 : Word) ≠ 0#32 ∧ directionOf (s.ch .otc).control = .fromRam ∧
        Port.otc ≠ .gpu) ∧
    (let s := engineAt .gpu ⟨0#32, 1#16, 0#16, 0x11000000#32⟩ (.block .gpu 0#32 1#32) [];
      s.halt = none ∧ s.eng = .block .gpu 0#32 1#32 ∧ directionOf (s.ch .gpu).control = .toRam ∧ Port.gpu ≠ .otc) ∧
    (let s := engineAt .spu ⟨0#32, 0#16, 0#16, 0x11000001#32⟩ (.block .spu 0#32 0#32) [];
      s.halt = none ∧ s.eng = .block .spu 0#32 0#32) ∧
    transferSize ⟨0#32, 0xffff#16, 0#16, 0#32⟩ = some 0xffff#32 := by decide

/-- V-BLK-2 from its start, and the last base and count the statement admits. -/
theorem test_witness_OrderingTableClearInClosedForm :
    let s := engineAt .otc ⟨4#32, 3#16, 0#16, 0x11000002#32⟩ (.block .otc 4#32 3#32) []
    s.halt = none ∧ s.eng = .block .otc 4#32 3#32 ∧ directionOf (s.ch .otc).control = .toRam ∧
      stepOf (s.ch .otc).control = .decrement ∧ (4#32 &&& 3#32 : Word) = 0#32 ∧ 1 ≤ (3#32 : Word).toNat ∧
      (3#32 : Word).toNat ≤ 0x80000 ∧ (0xfffffffc#32 &&& 3#32 : Word) = 0#32 ∧ (0x80000#32 : Word).toNat ≤ 0x80000 := by decide

theorem test_witness_VideoBlockTransferForwardsInOrder :
    let s := engineAt .gpu ⟨0x1ffff8#32, 3#16, 0#16, 0x11000001#32⟩ (.block .gpu 0x1ffff8#32 3#32) []
    s.halt = none ∧ s.eng = .block .gpu 0x1ffff8#32 3#32 ∧ directionOf (s.ch .gpu).control = .fromRam := by decide

/-- V-LL-7: the walk ends after one packet. -/
theorem test_witness_ListStepsEqualTheWalk :
    let s := engineAt .gpu ⟨0xffffffff#32, 0#16, 0#16, 0x01000401#32⟩ (.listHeader 0x1ffffc#32)
      [(0x1ffffc#32, 0x01800000#32), (0#32, 0x12345678#32)]
    s.halt = none ∧ s.eng = .listHeader 0x1ffffc#32 ∧ walk s 1 0x1ffffc#32 = some [.gp0 0x12345678#32] := by decide

/-- V-LL-8: a header that names itself. -/
theorem test_witness_UnterminatedListsRunForever :
    let s := engineAt .gpu ⟨0x3000#32, 0#16, 0#16, 0x01000401#32⟩ (.listHeader 0x3000#32) [(0x3000#32, 0x00003000#32)]
    (s.halt = none ∧ s.eng = .listHeader 0x3000#32 ∧ ∀ k, walk s k 0x3000#32 = none) ∧
    (s.ramWord 0x3000#32 &&& 0x00800000#32 = 0#32 ∧ s.ramWord 0x3000#32 &&& 0x001ffffc#32 = 0x3000#32) := by
  intro s
  have h : s.ramWord 0x3000#32 = 0x00003000#32 := by decide
  refine ⟨⟨rfl, rfl, fun k => ?_⟩, by rw [h]; decide, by rw [h]; decide⟩
  induction k with
  | zero => rfl
  | succ k ih =>
    simp only [walk, h, show headerEnd 0x00003000#32 = false by decide, show windowAddr 0x00003000#32 = 0x3000#32 by decide, ih]
    rfl

/-- A chain that enters a cycle of two headers after its first one. -/
theorem test_witness_UnterminatedListsRunForever_cycle :
    let s := withWords [(0x2000#32, 0x01003000#32), (0x3000#32, 0x00003100#32), (0x3100#32, 0x00003000#32)]
    let c := fun i => [0x2000#32, 0x3000#32, 0x3100#32, 0x3000#32].getD i 0#32
    1 < 3 ∧ c 3 = c 1 ∧
      ∀ i, i < 3 → s.ramWord (c i) &&& 0x00800000#32 = 0#32 ∧ c (i + 1) = s.ramWord (c i) &&& 0x001ffffc#32 := by decide

end Sys2Proof.Machine
end

/-!
PROOF. The family 00_scope.md: the round trip of narrowing and widening (R10), the step of the ready block, and the step of the
running engine (R5, R6).
-/

namespace Sys2Proof.Machine

/-! ### Narrowing and widening -/

/-- A value widened and narrowed to its own kind is itself (R10). -/
@[simp] theorem fromU32_width_asU32 (x : Value) : fromU32 x.width (asU32 x) = x := by
  cases x <;> simp [fromU32, asU32, Value.width]

/-- Cutting a word to its low `k` bits and zero-extending it again is masking with `k` ones. -/
theorem setWidth_setWidth_eq_and (v : Word) (k : Nat) (hk : k ≤ 32) :
    (v.setWidth k).setWidth 32 = v &&& BitVec.ofNat 32 (2 ^ k - 1) := by
  have hlt : 2 ^ k - 1 < 2 ^ 32 := by have := Nat.pow_le_pow_right (n := 2) (by decide) hk; omega
  apply BitVec.eq_of_toNat_eq
  rw [BitVec.toNat_and, BitVec.toNat_ofNat, Nat.mod_eq_of_lt hlt, Nat.and_two_pow_sub_one_eq_mod]
  simp only [BitVec.toNat_setWidth]
  exact Nat.mod_eq_of_lt (lt_of_le_of_lt (Nat.mod_le _ _) v.isLt)

/-- A word narrowed to a kind and widened keeps the bits of the kind's mask (R8, R9, R10). -/
theorem asU32_fromU32 (T : Width) (v : Word) : asU32 (fromU32 T v) = v &&& widthMask T := by
  cases T with
  | byte => exact setWidth_setWidth_eq_and v 8 (by decide)
  | half => exact setWidth_setWidth_eq_and v 16 (by decide)
  | word => exact (BitVec.and_allOnes (x := v)).symm

/-- Settles O6. -/
theorem narrowingAndWideningRoundTrip : Obligations.NarrowingAndWideningRoundTrip :=
  ⟨fromU32_width_asU32, asU32_fromU32⟩

/-! ### The step of the ready block -/

@[simp] theorem selectEngine_of_idle {s : State} (he : s.eng = .idle) : selectEngine s = none := by
  simp [selectEngine, he]

/-- The ready block runs its next request, taken off the queue. -/
theorem step_of_decode {s : State} {r : Request} {rs : List Request} {i : Instr} (hs : s.ready)
    (hr : s.requests = r :: rs) (hd : decode r = .ok i) : step s = exec i { s with requests := rs } := by
  simp [step, fetch, fetchRequest, hs.1, selectEngine_of_idle hs.2, hr, hd]

/-- The ready block without a request waits (log entry 4). -/
theorem step_of_no_requests {s : State} (hs : s.ready) (hr : s.requests = []) : step s = .next s := by
  simp [step, fetch, fetchRequest, hs.1, selectEngine_of_idle hs.2, hr]

theorem decodeTableWord_eq_some_iff (nbits w : Nat) (i : Instr) :
    decodeTableWord nbits w = some i ↔ decode (tableRequest nbits w) = .ok i := by
  unfold decodeTableWord
  cases decode (tableRequest nbits w) <;> simp [Except.toOption]

/-- A placed request finds the block ready (log entry 25). -/
theorem State.placeRequest_ready (s : State) (r : Request) : (s.placeRequest r).ready := ⟨rfl, rfl⟩

/-- Settles O40: a placed table word is a request at the head of a ready block's queue. -/
theorem stepRunsTheDecodedRequest : Obligations.StepRunsTheDecodedRequest := by
  refine ⟨fun _ _ _ _ => step_of_decode, fun _ => step_of_no_requests, fun s nbits w i hi => ?_⟩
  rw [decodeTableWord_eq_some_iff] at hi
  exact step_of_decode (s.placeRequest_ready _) rfl hi

/-! ### What each engine row answers where the engine state selects it -/

theorem engBlockDone_runs {s : State} {p : Port} {addr : Word} (hh : s.halt = none) (he : s.eng = .block p addr 0#32) :
    selectEngine s = some .engBlockDone ∧
      exec .engBlockDone s =
        .next (((s.setControl p (doneControl (s.ch p).control)).setEng .idle).returned .stored) := by
  simp [selectEngine, exec, execEngBlockDone, engFront_of_running, done_next_iff, hh, he]

theorem engBlockGpuWord_runs {s : State} {addr n : Word} (hh : s.halt = none) (he : s.eng = .block .gpu addr n)
    (hn : n ≠ 0#32) (hd : directionOf (s.ch .gpu).control = .fromRam) :
    selectEngine s = some .engBlockGpuWord ∧
      exec .engBlockGpuWord s =
        .next ((s.emit (.gp0 (s.ramWord (windowAddr addr)))).setEng
          (.block .gpu (addr + stepValue (s.ch .gpu).control) (n - 1#32))) := by
  simp [selectEngine, exec, execEngBlockGpuWord, engFront_of_running, hh, he, hn, hd]

theorem engBlockFromRamFatal_runs {s : State} {p : Port} {addr n : Word} (hh : s.halt = none)
    (he : s.eng = .block p addr n) (hn : n ≠ 0#32) (hd : directionOf (s.ch p).control = .fromRam) (hp : p ≠ .gpu) :
    selectEngine s = some .engBlockFromRamFatal ∧
      exec .engBlockFromRamFatal s = .next { s with halt := some (.dmaBlockDestPort p) } := by
  simp [selectEngine, exec, execEngBlockFromRamFatal, engFront_of_running, raise, hh, he, hn, hd, hp]

theorem engBlockOtcWord_runs {s : State} {addr n : Word} (hh : s.halt = none) (he : s.eng = .block .otc addr n)
    (hn : n ≠ 0#32) (hd : directionOf (s.ch .otc).control = .toRam) :
    selectEngine s = some .engBlockOtcWord ∧
      exec .engBlockOtcWord s =
        .next ((s.ramWrite (windowAddr addr) (.word (otcWord addr n))).setEng
          (.block .otc (addr + stepValue (s.ch .otc).control) (n - 1#32))) := by
  simp [selectEngine, exec, execEngBlockOtcWord, engFront_of_running, hh, he, hn, hd]

theorem engBlockToRamFatal_runs {s : State} {p : Port} {addr n : Word} (hh : s.halt = none)
    (he : s.eng = .block p addr n) (hn : n ≠ 0#32) (hd : directionOf (s.ch p).control = .toRam) (hp : p ≠ .otc) :
    selectEngine s = some .engBlockToRamFatal ∧
      exec .engBlockToRamFatal s = .next { s with halt := some (.dmaBlockSourcePort p) } := by
  simp [selectEngine, exec, execEngBlockToRamFatal, engFront_of_running, raise, hh, he, hn, hd, hp]

theorem engListHeader_runs {s : State} {cursor : Word} (hh : s.halt = none) (he : s.eng = .listHeader cursor) :
    selectEngine s = some .engListHeader ∧
      exec .engListHeader s =
        .next (s.setEng (.listPayload cursor (headerCount (s.ramWord cursor)) (s.ramWord cursor))) := by
  simp [selectEngine, exec, execEngListHeader, engFront_of_running, hh, he]

theorem engListWord_runs {s : State} {addr header : Word} {left : Byte} (hh : s.halt = none)
    (he : s.eng = .listPayload addr left header) (hl : left ≠ 0#8) :
    selectEngine s = some .engListWord ∧
      exec .engListWord s =
        .next ((s.emit (.gp0 (s.ramWord (windowAddr (addr + 4#32))))).setEng
          (.listPayload (windowAddr (addr + 4#32)) (left - 1#8) header)) := by
  simp [selectEngine, exec, execEngListWord, engFront_of_running, hh, he, hl]

theorem engListNext_runs {s : State} {addr header : Word} (hh : s.halt = none)
    (he : s.eng = .listPayload addr 0#8 header) (hend : headerEnd header = false) :
    selectEngine s = some .engListNext ∧
      exec .engListNext s = .next (s.setEng (.listHeader (windowAddr header))) := by
  simp [selectEngine, exec, execEngListNext, engFront_of_running, hh, he, hend]

theorem engListEnd_runs {s : State} {addr header : Word} (hh : s.halt = none)
    (he : s.eng = .listPayload addr 0#8 header) (hend : headerEnd header = true) :
    selectEngine s = some .engListEnd ∧
      exec .engListEnd s =
        .next (((s.setControl .gpu (doneControl (s.ch .gpu).control)).setEng .idle).returned .stored) := by
  simp [selectEngine, exec, execEngListEnd, engFront_of_running, done_next_iff, hh, he, hend]

/-! ### The step of the running engine -/

/-- While the engine runs the step is its row: the CPU does not step (R6). -/
theorem step_of_selectEngine {s : State} {i : Instr} (hh : s.halt = none) (hi : selectEngine s = some i) :
    step s = exec i s := by
  simp [step, fetch, hh, hi]

/-- In block mode the count, the direction and the port select a row, and each row answers a next state. -/
theorem block_runs {s : State} {p : Port} {addr n : Word} (hh : s.halt = none) (he : s.eng = .block p addr n) :
    ∃ i t, selectEngine s = some i ∧ exec i s = .next t := by
  by_cases hn : n = 0#32
  · subst hn
    exact ⟨_, _, engBlockDone_runs hh he⟩
  cases hd : directionOf (s.ch p).control with
  | fromRam =>
    by_cases hp : p = .gpu
    · subst hp
      exact ⟨_, _, engBlockGpuWord_runs hh he hn hd⟩
    · exact ⟨_, _, engBlockFromRamFatal_runs hh he hn hd hp⟩
  | toRam =>
    by_cases hp : p = .otc
    · subst hp
      exact ⟨_, _, engBlockOtcWord_runs hh he hn hd⟩
    · exact ⟨_, _, engBlockToRamFatal_runs hh he hn hd hp⟩

/-- In a packet the words left and then the end bit select a row, and each row answers a next state. -/
theorem listPayload_runs {s : State} {addr header : Word} {left : Byte} (hh : s.halt = none)
    (he : s.eng = .listPayload addr left header) : ∃ i t, selectEngine s = some i ∧ exec i s = .next t := by
  by_cases hl : left = 0#8
  · subst hl
    cases hend : headerEnd header with
    | false => exact ⟨_, _, engListNext_runs hh he hend⟩
    | true => exact ⟨_, _, engListEnd_runs hh he hend⟩
  · exact ⟨_, _, engListWord_runs hh he hl⟩

/-- A running engine selects a row, and that row answers a next state. -/
theorem running_engine_runs {s : State} (hh : s.halt = none) (he : s.eng ≠ .idle) :
    ∃ i t, selectEngine s = some i ∧ exec i s = .next t := by
  cases hs : s.eng with
  | idle => exact absurd hs he
  | block p addr n => exact block_runs hh hs
  | listHeader cursor => exact ⟨_, _, engListHeader_runs hh hs⟩
  | listPayload addr left header => exact listPayload_runs hh hs

theorem ChannelWrite.requests {s : State} {p : Port} {u : State} (h : ChannelWrite s p u) :
    u.requests = s.requests := by
  cases h <;> rfl

/-- No operation and no engine step touches the queue: only a step's fetch does (log entry 1). -/
theorem Effect.requests {s t : State} (h : Effect s t) : t.requests = s.requests := by
  cases h with
  | wrChannel _ _ _ hu | startBlock _ _ _ hu | startList _ _ hu | startFatal _ _ _ hu => exact hu.requests
  | _ => rfl

/-- Settles O41, by cases on what the engine runs; the queue is kept by every effect of a row. -/
theorem runningEngineAlwaysSteps : Obligations.RunningEngineAlwaysSteps := by
  intro s hh he
  obtain ⟨i, t, hi, ht⟩ := running_engine_runs hh he
  have heff : Effect s t := exec_effect (selectEngine_ne_start hi) ht
  exact ⟨i, t, hi, step_of_selectEngine hh hi, ht, heff.requests⟩

end Sys2Proof.Machine

/-!
PROOF. The family 10_state.md: the channel invariant of a step (R39, R203, R206), the derived fields of a channel (R32, R33), the
halt latch (R35), the engine's window and the reply (R34, R200), what a step leaves unchanged (R22, R23, R37, R43), and the state
after reset (R45).
-/

namespace Sys2Proof.Machine

/-! ### The state after reset -/

@[simp] theorem State.reset_ch (p : Port) : State.reset.ch p = Channel.reset := by cases p <;> rfl

/-- After reset no channel is active: its control word is zero (R45). -/
@[simp] theorem State.reset_active (p : Port) : State.reset.active p = false := by
  rw [State.active, State.reset_ch]
  decide

theorem reset_syncInv : SyncInv State.reset := by
  intro p
  rw [State.reset_ch]
  decide

theorem reset_quietInv : QuietInv State.reset := fun _ => State.reset_active

theorem reset_transferInv : TransferInv State.reset := trivial

/-! ### What a write of a channel's register leaves -/

theorem State.ready_of_not_busy {s : State} (hs : s.busy = false) : s.ready := s.busy_eq_false_iff.1 hs

theorem ChannelWrite.eng {s : State} {p : Port} {u : State} (h : ChannelWrite s p u) : u.eng = s.eng := by
  cases h <;> rfl

theorem ChannelWrite.reply {s : State} {p : Port} {u : State} (h : ChannelWrite s p u) : u.reply = s.reply := by
  cases h <;> rfl

theorem ChannelWrite.ch_of_ne {s : State} {p q : Port} {u : State} (h : ChannelWrite s p u) (hq : q ≠ p) :
    u.ch q = s.ch q := by
  cases h <;> simp [hq]

/-- A control word is stored only where its sync field names a mode (R196). -/
theorem ChannelWrite.syncInv {s : State} {p : Port} {u : State} (h : ChannelWrite s p u) (hs : SyncInv s) : SyncInv u := by
  intro q
  by_cases hq : q = p
  · subst hq
    cases h with
    | base val => simpa using hs q
    | block val => simpa using hs q
    | control val hv => simpa using hv
  · rw [h.ch_of_ne hq]
    exact hs q

theorem ChannelWrite.active_of_ne {s : State} {p q : Port} {u : State} (h : ChannelWrite s p u) (hq : q ≠ p) :
    u.active q = s.active q := by
  rw [State.active, State.active, h.ch_of_ne hq]

/-- Where no channel was active, at most the written one is. -/
theorem ChannelWrite.active_iff {s : State} {p : Port} {u : State} (h : ChannelWrite s p u)
    (hs : ∀ q, s.active q = false) (hp : u.active p = true) (q : Port) : u.active q = true ↔ q = p := by
  by_cases hq : q = p
  · simp [hq, hp]
  · simp [hq, h.active_of_ne hq, hs q]

theorem ChannelWrite.not_active {s : State} {p : Port} {u : State} (h : ChannelWrite s p u)
    (hs : ∀ q, s.active q = false) (hp : u.active p = false) (q : Port) : u.active q = false := by
  by_cases hq : q = p
  · rw [hq, hp]
  · rw [h.active_of_ne hq, hs q]

/-! ### The channels after `done` -/

theorem doneControl_syncInv {s : State} (p : Port) (hs : SyncInv s) :
    SyncInv (s.setControl p (doneControl (s.ch p).control)) := by
  intro q
  by_cases hq : q = p
  · simpa [hq] using hs p
  · simpa [hq] using hs q

/-- The running channel is the only active one, in either mode (R203, R206). -/
theorem TransferInv.active_iff {s : State} (ht : TransferInv s) {p : Port} (hp : s.eng.port? = some p) (q : Port) :
    s.active q = true ↔ q = p := by
  unfold TransferInv at ht
  cases he : s.eng with
  | idle => simp [he] at hp
  | block p' addr n =>
    obtain rfl : p' = p := by simpa [he] using hp
    rw [he] at ht
    exact ht.2 q
  | listHeader cursor =>
    obtain rfl : Port.gpu = p := by simpa [he] using hp
    rw [he] at ht
    exact ht.2.2 q
  | listPayload addr left header =>
    obtain rfl : Port.gpu = p := by simpa [he] using hp
    rw [he] at ht
    exact ht.2.2 q

/-- `done` leaves no channel active, for the running one was the only one (R204, R206). -/
theorem TransferInv.not_active_done {s : State} (ht : TransferInv s) {p : Port} (hp : s.eng.port? = some p) (q : Port) :
    (s.setControl p (doneControl (s.ch p).control)).active q = false := by
  by_cases hq : q = p
  · simp [State.active, hq]
  · have h : ¬ s.active q = true := fun h => hq ((ht.active_iff hp q).1 h)
    simpa [State.active, hq] using h

/-! ### The channel invariant, effect by effect -/

theorem Effect.syncInv {s t : State} (h : Effect s t) (hs : SyncInv s) : SyncInv t := by
  cases h with
  | wrChannel _ _ _ hu | startBlock _ _ _ hu | startList _ _ hu | startFatal _ _ _ hu => exact hu.syncInv hs
  | blockDone | listEnd => exact doneControl_syncInv _ hs
  | _ => exact hs

/-- An effect that leaves the block ready leaves no channel active (R39). -/
theorem Effect.quietInv {s t : State} (h : Effect s t) (hq : QuietInv s) (ht : TransferInv s) : QuietInv t := by
  cases h with
  | raised | startFatal | blockFatal => exact fun hr => nomatch hr.1
  | startBlock | startList | blockGpuWord | blockOtcWord | listHeader | listWord | listNext => exact fun hr => nomatch hr.2
  | wrChannel hs p u hu ha => exact fun _ => hu.not_active (hq (State.ready_of_not_busy hs)) ha
  | blockDone _ _ _ he | listEnd _ _ _ _ he => exact fun _ => ht.not_active_done (by simp [he])
  | _ => exact hq

/-- The two starts set the running channel up, the engine's own steps keep it, and every other effect leaves the engine idle. -/
theorem Effect.transferInv {s t : State} (h : Effect s t) (hq : QuietInv s) (ht : TransferInv s) : TransferInv t := by
  have idle {u : State} (hu : u.eng = .idle) : TransferInv u := by simp [TransferInv, hu]
  cases h with
  | startBlock hs p u hu ha hm n => exact ⟨hm, hu.active_iff (hq (State.ready_of_not_busy hs)) ha⟩
  | startList hs u hu ha hm hd => exact ⟨hm, hd, hu.active_iff (hq (State.ready_of_not_busy hs)) ha⟩
  | wrChannel hs _ _ hu | startFatal hs _ _ hu => exact idle (hu.eng.trans (State.ready_of_not_busy hs).2)
  | blockDone | listEnd => exact idle rfl
  | blockGpuWord _ _ _ he | blockOtcWord _ _ _ he | listHeader _ _ he | listWord _ _ _ _ he | listNext _ _ _ _ he =>
    rw [TransferInv, he] at ht
    exact ht
  | _ => exact ht

/-- Settles O50. A step that waits changes nothing; every other next state is an effect on the state, which keeps each part. -/
theorem noChannelIsActiveBetweenOperations : Obligations.NoChannelIsActiveBetweenOperations := by
  refine ⟨⟨reset_syncInv, reset_quietInv, reset_transferInv⟩, fun s t ⟨hs, hq, ht⟩ h => ?_⟩
  obtain rfl | ⟨rs, he⟩ := step_effect h
  · exact ⟨hs, hq, ht⟩
  · exact ⟨he.syncInv hs, he.quietInv hq ht, he.transferInv hq ht⟩

/-! ### The transfer size -/

/-- Two halves multiplied as words do not overflow (R11 (b)). -/
theorem setWidth_mul_toNat (a b : Half) : (a.setWidth 32 * b.setWidth 32).toNat = a.toNat * b.toNat := by
  have h : a.toNat * b.toNat < 2 ^ 16 * 2 ^ 16 := Nat.mul_lt_mul'' a.isLt b.isLt
  rw [BitVec.toNat_mul, BitVec.toNat_setWidth_of_le (by decide), BitVec.toNat_setWidth_of_le (by decide)]
  exact Nat.mod_eq_of_lt h

/-- Settles O31. -/
theorem transferSizeIsSizeOrProduct : Obligations.TransferSizeIsSizeOrProduct := by
  refine fun c => ⟨fun hm => ?_, fun hm => ?_, fun hm => (transferSize_eq_none_iff c).2 (.inl hm)⟩
  · simp [transferSize, hm]
  · exact ⟨_, by simp [transferSize, hm], setWidth_mul_toNat c.blockSize c.blockCount⟩

/-! ### The halt latch -/

/-- No operation and no engine step runs in a halted state (R35). -/
theorem Effect.not_halted {s t : State} (h : Effect s t) : s.halt = none := by
  cases h with
  | blockGpuWord hh | blockOtcWord hh | blockFatal hh | blockDone hh | listHeader hh | listWord hh | listNext hh
  | listEnd hh => exact hh
  | _ hs => exact (State.ready_of_not_busy hs).1

/-- An instruction that answers a next state ran in a state that is not halted: a start by its own front, any other row as an
effect. -/
theorem exec_not_halted {i : Instr} {s t : State} (h : exec i s = .next t) : s.halt = none := by
  by_cases hi : ∀ p, i ≠ .engBlockStart p ∧ i ≠ .engListStart p
  · exact (exec_effect hi h).not_halted
  · simp only [not_forall, not_and_or, not_not] at hi
    obtain ⟨p, rfl | rfl⟩ := hi
    · exact ((engFront_next_iff ..).1 h).1
    · exact ((engFront_next_iff ..).1 h).1

/-- Settles O42. -/
theorem haltedBlockTakesNoStep : Obligations.HaltedBlockTakesNoStep :=
  ⟨fun s c hc => by simp [step, hc], fun _ _ _ hs h => hs (exec_not_halted h)⟩

/-! ### The engine's window and the reply -/

/-- Every list address an effect sets is reduced to the window, or was before (R34). -/
theorem Effect.windowInv {s t : State} (h : Effect s t) (hw : WindowInv s) : WindowInv t := by
  have idle {u : State} (hu : u.eng = .idle) : WindowInv u := by simp [WindowInv, hu]
  cases h with
  | startList | listWord | listNext => exact windowAddr_windowAddr _
  | listHeader _ _ he =>
    rw [WindowInv, he] at hw
    exact hw
  | wrChannel hs _ _ hu | startFatal hs _ _ hu => exact idle (hu.eng.trans (State.ready_of_not_busy hs).2)
  | startBlock | blockGpuWord | blockOtcWord | blockDone | listEnd => trivial
  | _ => exact hw

/-- An effect that leaves the engine running hands nothing back (R200). -/
theorem Effect.replyInv {s t : State} (h : Effect s t) (hr : ReplyInv s) : ReplyInv t := by
  cases h with
  | startBlock _ _ _ hu | startList _ _ hu | startFatal _ _ _ hu => exact fun _ => hu.reply
  | blockGpuWord _ _ _ he | blockOtcWord _ _ _ he | listHeader _ _ he | listWord _ _ _ _ he | listNext _ _ _ _ he =>
    exact fun _ => hr (by simp [he])
  | blockFatal => exact hr
  | blockDone | listEnd => exact fun hne => absurd rfl hne
  | wrChannel hs _ _ hu => exact fun hne => absurd (hu.eng.trans (State.ready_of_not_busy hs).2) hne
  | _ hs => exact fun hne => absurd (State.ready_of_not_busy hs).2 hne

/-- Settles O51: a step that waits changes nothing, and every effect keeps each of the two. -/
theorem engineAddressesStayInTheWindow : Obligations.EngineAddressesStayInTheWindow := by
  refine ⟨fun s t hw h => ?_, fun s t hr h => ?_⟩
  · obtain rfl | ⟨rs, he⟩ := step_effect h
    · exact hw
    · exact he.windowInv hw
  · obtain rfl | ⟨rs, he⟩ := step_effect h
    · exact hr
    · exact he.replyInv hr

/-! ### The active predicate, and the state after reset -/

/-- Settles O30, mode by mode. -/
theorem activeIsEnableAndTriggerInManualMode : Obligations.ActiveIsEnableAndTriggerInManualMode := by
  refine ⟨fun ctl hs => ?_, fun ctl => ?_, fun _ _ => rfl⟩
  · have h3 : syncField ctl ≠ 3#2 := mt (syncOf_eq_none_iff ctl).2 hs
    simp [activeOf_eq_true_iff, h3]
  · cases hs : syncOf ctl with
    | none => simp [activeOf, hs]
    | some m => cases m <;> simp [activeOf, hs]

/-- Settles O47. -/
theorem resetGivesTheStatedValues : Obligations.ResetGivesTheStatedValues := by
  refine ⟨State.reset_ch, fun p => ?_, rfl, rfl, rfl⟩
  rw [State.reset_active, State.reset_ch]
  decide

/-- Settles O48. -/
theorem resetMeetsTheInvariants : Obligations.ResetMeetsTheInvariants :=
  ⟨⟨rfl, rfl⟩, reset_syncInv, reset_quietInv, reset_transferInv, trivial, fun _ => rfl⟩

/-! ### The step of the running engine, row by row -/

/-- What a step of the running engine does, exactly: the row the engine state selects, and the next state that row answers. -/
inductive EngineStep (s : State) : State → Prop
  | blockDone (p : Port) (addr : Word) (he : s.eng = .block p addr 0#32) :
      EngineStep s (((s.setControl p (doneControl (s.ch p).control)).setEng .idle).returned .stored)
  | blockGpuWord (addr n : Word) (he : s.eng = .block .gpu addr n) (hn : n ≠ 0#32)
      (hd : directionOf (s.ch .gpu).control = .fromRam) :
      EngineStep s ((s.emit (.gp0 (s.ramWord (windowAddr addr)))).setEng
        (.block .gpu (addr + stepValue (s.ch .gpu).control) (n - 1#32)))
  | blockFromRamFatal (p : Port) (addr n : Word) (he : s.eng = .block p addr n) (hn : n ≠ 0#32)
      (hd : directionOf (s.ch p).control = .fromRam) (hp : p ≠ .gpu) :
      EngineStep s { s with halt := some (.dmaBlockDestPort p) }
  | blockOtcWord (addr n : Word) (he : s.eng = .block .otc addr n) (hn : n ≠ 0#32)
      (hd : directionOf (s.ch .otc).control = .toRam) :
      EngineStep s ((s.ramWrite (windowAddr addr) (.word (otcWord addr n))).setEng
        (.block .otc (addr + stepValue (s.ch .otc).control) (n - 1#32)))
  | blockToRamFatal (p : Port) (addr n : Word) (he : s.eng = .block p addr n) (hn : n ≠ 0#32)
      (hd : directionOf (s.ch p).control = .toRam) (hp : p ≠ .otc) :
      EngineStep s { s with halt := some (.dmaBlockSourcePort p) }
  | listHeader (cursor : Word) (he : s.eng = .listHeader cursor) :
      EngineStep s (s.setEng (.listPayload cursor (headerCount (s.ramWord cursor)) (s.ramWord cursor)))
  | listWord (addr header : Word) (left : Byte) (he : s.eng = .listPayload addr left header) (hl : left ≠ 0#8) :
      EngineStep s ((s.emit (.gp0 (s.ramWord (windowAddr (addr + 4#32))))).setEng
        (.listPayload (windowAddr (addr + 4#32)) (left - 1#8) header))
  | listNext (addr header : Word) (he : s.eng = .listPayload addr 0#8 header) (hend : headerEnd header = false) :
      EngineStep s (s.setEng (.listHeader (windowAddr header)))
  | listEnd (addr header : Word) (he : s.eng = .listPayload addr 0#8 header) (hend : headerEnd header = true) :
      EngineStep s (((s.setControl .gpu (doneControl (s.ch .gpu).control)).setEng .idle).returned .stored)

/-- The next state of the step is that of the row the engine selects. -/
theorem step_next_of_runs {s t u : State} {i : Instr} (h : step s = .next t)
    (hr : selectEngine s = some i ∧ exec i s = .next u) : t = u := by
  rw [step_of_selectEngine (step_cases h).1 hr.1, hr.2] at h
  exact (Host.Outcome.next.inj h).symm

theorem step_block {s t : State} {p : Port} {addr n : Word} (he : s.eng = .block p addr n) (h : step s = .next t) :
    EngineStep s t := by
  have hh := (step_cases h).1
  by_cases hn : n = 0#32
  · subst hn
    exact step_next_of_runs h (engBlockDone_runs hh he) ▸ .blockDone p addr he
  cases hd : directionOf (s.ch p).control with
  | fromRam =>
    by_cases hp : p = .gpu
    · subst hp
      exact step_next_of_runs h (engBlockGpuWord_runs hh he hn hd) ▸ .blockGpuWord addr n he hn hd
    · exact step_next_of_runs h (engBlockFromRamFatal_runs hh he hn hd hp) ▸ .blockFromRamFatal p addr n he hn hd hp
  | toRam =>
    by_cases hp : p = .otc
    · subst hp
      exact step_next_of_runs h (engBlockOtcWord_runs hh he hn hd) ▸ .blockOtcWord addr n he hn hd
    · exact step_next_of_runs h (engBlockToRamFatal_runs hh he hn hd hp) ▸ .blockToRamFatal p addr n he hn hd hp

theorem step_listPayload {s t : State} {addr header : Word} {left : Byte} (he : s.eng = .listPayload addr left header)
    (h : step s = .next t) : EngineStep s t := by
  have hh := (step_cases h).1
  by_cases hl : left = 0#8
  · subst hl
    cases hend : headerEnd header with
    | false => exact step_next_of_runs h (engListNext_runs hh he hend) ▸ .listNext addr header he hend
    | true => exact step_next_of_runs h (engListEnd_runs hh he hend) ▸ .listEnd addr header he hend
  · exact step_next_of_runs h (engListWord_runs hh he hl) ▸ .listWord addr header left he hl

theorem step_engineStep {s t : State} (he : s.eng ≠ .idle) (h : step s = .next t) : EngineStep s t := by
  cases hs : s.eng with
  | idle => exact absurd hs he
  | block p addr n => exact step_block hs h
  | listHeader cursor => exact step_next_of_runs h (engListHeader_runs (step_cases h).1 hs) ▸ .listHeader cursor hs
  | listPayload addr left header => exact step_listPayload hs h

/-! ### What the running engine leaves unchanged -/

/-- The engine changes a channel only where it ends that channel's transfer, and then its control word by `done` (R43, R204). -/
theorem EngineStep.ch {s t : State} (h : EngineStep s t) (p : Port) :
    t.ch p = if s.eng.port? = some p ∧ t.eng = .idle then { s.ch p with control := doneControl (s.ch p).control }
      else s.ch p := by
  cases h with
  | blockDone q addr he =>
    by_cases hp : p = q
    · simp [he, hp]
    · simp [he, hp, Ne.symm hp]
  | listEnd addr header he =>
    by_cases hp : p = .gpu
    · simp [he, hp]
    · simp [he, hp, Ne.symm hp]
  | blockFromRamFatal _ _ _ he | blockToRamFatal _ _ _ he =>
    rw [if_neg fun hc => by simp [he] at hc]
    rfl
  | _ => simp

/-- The engine changes no register of the controller or the bus, not BIOS, not the queue, and takes no free value. -/
theorem EngineStep.frame {s t : State} (h : EngineStep s t) :
    t.dma.control = s.dma.control ∧ t.dma.interrupt = s.dma.interrupt ∧ t.cacheControl = s.cacheControl ∧
      t.bios = s.bios ∧ t.gpuFree = s.gpuFree ∧ t.requests = s.requests := by
  cases h <;> exact ⟨rfl, rfl, rfl, rfl, rfl, rfl⟩

/-- Of the engine's steps only a word of the ordering table writes RAM (R238, R263). -/
theorem EngineStep.ram {s t : State} (h : EngineStep s t) :
    t.ram = s.ram ∨ ∃ addr n, s.eng = .block .otc addr n ∧ directionOf (s.ch .otc).control = .toRam := by
  cases h with
  | blockOtcWord addr n he _ hd => exact .inr ⟨addr, n, he, hd⟩
  | _ => exact .inl rfl

/-- Of the block steps only a word to the video port sends one (R238). -/
theorem EngineStep.gpuTrace {s t : State} (h : EngineStep s t) {p : Port} {addr n : Word} (he : s.eng = .block p addr n) :
    t.gpuTrace = s.gpuTrace ∨ p = .gpu ∧ directionOf (s.ch p).control = .fromRam := by
  cases h with
  | blockGpuWord addr' n' he' _ hd =>
    obtain ⟨rfl, -, -⟩ := Engine.block.inj (he.symm.trans he')
    exact .inr ⟨rfl, hd⟩
  | listWord _ _ _ he' => exact nomatch he.symm.trans he'
  | _ => exact .inl rfl

/-- Settles O53. -/
theorem transfersLeaveTheRegisters : Obligations.TransfersLeaveTheRegisters := by
  intro s t hne h
  have hstep := step_engineStep hne h
  obtain ⟨hctl, hirq, hcc, hbios, hfree, hreq⟩ := hstep.frame
  refine ⟨fun p hp => ?_, fun p hp => ?_, hctl, hirq, hcc, hbios, hfree, hreq,
    fun p addr n he => ⟨fun hdir => ?_, fun hdir => ?_⟩, fun hlist => ?_⟩
  · rw [hstep.ch, if_neg fun hc => hp hc.1]
  · simp [hstep.ch, hp]
  · refine hstep.ram.resolve_right fun ⟨_, _, he', hd⟩ => ?_
    obtain ⟨rfl, -, -⟩ := Engine.block.inj (he.symm.trans he')
    simp [hd] at hdir
  · refine (hstep.gpuTrace he).resolve_right fun ⟨hp, hd⟩ => ?_
    subst hp
    simp [hd] at hdir
  · exact hstep.ram.resolve_right fun ⟨addr, n, he', _⟩ => hlist .otc addr n he'

/-! ### The rows a request runs -/

theorem exec_rdChannelInstr (p : Port) (r : ChannelReg) (s : State) : exec (rdChannelInstr p r) s = rdChannel p r s := by
  cases p <;> cases r <;> rfl

theorem exec_wrChannelInstr (p : Port) (r : ChannelReg) (val : Word) (s : State) :
    exec (wrChannelInstr val p r) s = wrChannel p r val s := by
  cases p <;> cases r <;> rfl

/-- A register read by offset is the word read of the DMA range there (R180; log entry 2). -/
theorem exec_rdInstr (off : BitVec 7) (s : State) : exec (rdInstr off) s = dmaRead .word off s := by
  unfold rdInstr dmaRead
  rw [if_neg (by decide)]
  cases regSel off with
  | channel p r => exact exec_rdChannelInstr p r s
  | dmaCtl | dmaIrq | reserved => rfl

/-- A register write by offset is the word write of the DMA range there (R180; log entry 2). -/
theorem exec_wrInstr (off : BitVec 7) (val : Word) (s : State) : exec (wrInstr off val) s = dmaWrite off (.word val) s := by
  unfold wrInstr dmaWrite
  cases regSel off with
  | channel p r => exact exec_wrChannelInstr p r val s
  | dmaCtl | dmaIrq | reserved => rfl

/-- Among the offsets only 0x74 selects the interrupt register (R110). -/
theorem regSel_eq_dmaIrq_iff (off : BitVec 7) : regSel off = .dmaIrq ↔ off = 0x74#7 := by
  revert off
  decide

/-- Bits 6:0 of an offset in the DMA range are the whole offset (R110). -/
theorem maskRegion_of_dma_offset {addr o : Word} {off : BitVec 7}
    (ho : Target.dma.range.contains (maskRegion addr) = some o) (h : o.setWidth 7 = off) :
    maskRegion addr = Target.dma.range.base + off.setWidth 32 := by
  obtain ⟨hlt, hadd⟩ := Range.contains_bounds ho
  subst h
  have hlen : Target.dma.range.length.toNat = 0x80 := rfl
  have hbase : Target.dma.range.base.toNat = 0x1f801080 := rfl
  apply BitVec.eq_of_toNat_eq
  simp only [BitVec.toNat_add, BitVec.toNat_setWidth]
  omega

/-! ### What keeps cache control and the interrupt register -/

/-- The two registers that only their own writes change (R23, R37). -/
def State.guarded (s : State) : Word × Word := (s.cacheControl, s.dma.interrupt)

theorem loads_guarded {v : Value} {s t : State} {g : Word × Word} (h : loads v s = .next t) (hs : s.guarded = g) :
    t.guarded = g := by
  obtain rfl := (loads_next_iff _ _ _).1 h
  exact hs

theorem stores_guarded {s t : State} {g : Word × Word} (h : stores s = .next t) (hs : s.guarded = g) :
    t.guarded = g := by
  obtain rfl := (stores_next_iff _ _).1 h
  exact hs

theorem raise_guarded {c : Cause} {s t : State} {g : Word × Word} (h : raise c s = .next t) (hs : s.guarded = g) :
    t.guarded = g := by
  obtain rfl := (raise_next_iff _ _ _).1 h
  exact hs

/-- A bus operation keeps what its row keeps. -/
theorem busFront_guarded {T : Width} {addr : Word} {tg : Target} {s t : State} {k : Word → State → Out}
    (h : busFront T addr tg s k = .next t) (hk : ∀ o, k o s.begin = .next t → t.guarded = s.guarded) :
    t.guarded = s.guarded := by
  obtain ⟨-, -, o, -, h⟩ := (busFront_next_iff ..).1 h
  exact hk o h

theorem unmappedFront_guarded {T : Width} {addr : Word} {tg : Option Target} {c : Cause} {s t : State}
    (h : unmappedFront T addr tg s (fun s => raise c s) = .next t) : t.guarded = s.guarded := by
  obtain ⟨-, -, -, h⟩ := (unmappedFront_next_iff ..).1 h
  exact raise_guarded h rfl

/-- A register access keeps what its row keeps. -/
theorem regFront_guarded {s t : State} {k : State → Out} (h : regFront s k = .next t)
    (hk : k s.begin = .next t → t.guarded = s.guarded) : t.guarded = s.guarded :=
  hk ((regFront_next_iff ..).1 h).2

theorem regFront_loads_guarded {v : State → Value} {s t : State} (h : regFront s (fun s => loads (v s) s) = .next t) :
    t.guarded = s.guarded :=
  regFront_guarded h fun h => loads_guarded h rfl

theorem reservedFront_guarded {off : BitVec 7} {c : Cause} {s t : State}
    (h : reservedFront off s (fun s => raise c s) = .next t) : t.guarded = s.guarded := by
  obtain ⟨-, -, -, h⟩ := (reservedFront_next_iff ..).1 h
  exact raise_guarded h rfl

/-! ### A channel's registers: a read, and a write with the start it causes, keep both -/

theorem execEngBlockStart_guarded {p : Port} {s t : State} (h : execEngBlockStart p s = .next t) :
    t.guarded = s.guarded := by
  obtain ⟨-, h⟩ := (engFront_next_iff ..).1 h
  split at h
  · split at h
    · exact raise_guarded h rfl
    · obtain rfl := Host.Outcome.next.inj h
      rfl
  · cases h

theorem execEngListStart_guarded {p : Port} {s t : State} (h : execEngListStart p s = .next t) :
    t.guarded = s.guarded := by
  obtain ⟨-, h⟩ := (engFront_next_iff ..).1 h
  split at h
  · split at h
    · exact raise_guarded h rfl
    · split at h
      · exact raise_guarded h rfl
      · obtain rfl := Host.Outcome.next.inj h
        rfl
  · cases h

theorem afterChannelWrite_guarded {p : Port} {s t : State} {g : Word × Word} (h : afterChannelWrite p s = .next t)
    (hs : s.guarded = g) : t.guarded = g := by
  unfold afterChannelWrite startTransfer at h
  split at h
  · split at h
    · exact (execEngListStart_guarded h).trans hs
    · exact (execEngBlockStart_guarded h).trans hs
  · exact stores_guarded h hs

theorem wrBase_guarded {p : Port} {val : Word} {s t : State} (h : wrBase p val s = .next t) : t.guarded = s.guarded :=
  regFront_guarded h fun h => afterChannelWrite_guarded h rfl

theorem wrBlock_guarded {p : Port} {val : Word} {s t : State} (h : wrBlock p val s = .next t) : t.guarded = s.guarded :=
  regFront_guarded h fun h => afterChannelWrite_guarded h rfl

theorem wrChctl_guarded {p : Port} {val : Word} {s t : State} (h : wrChctl p val s = .next t) :
    t.guarded = s.guarded := by
  refine regFront_guarded h fun h => ?_
  split at h
  · exact raise_guarded h rfl
  · exact afterChannelWrite_guarded h rfl

theorem wrChannel_guarded {p : Port} {r : ChannelReg} {val : Word} {s t : State} (h : wrChannel p r val s = .next t) :
    t.guarded = s.guarded := by
  cases r with
  | base => cases p <;> exact wrBase_guarded h
  | block => cases p <;> exact wrBlock_guarded h
  | chctl => cases p <;> exact wrChctl_guarded h

theorem rdChannel_guarded {p : Port} {r : ChannelReg} {s t : State} (h : rdChannel p r s = .next t) :
    t.guarded = s.guarded := by
  cases r with
  | base => cases p <;> exact regFront_loads_guarded (v := fun s => .word (s.ch _).base) h
  | block => cases p <;> exact regFront_loads_guarded (v := fun s => .word (blockWord (s.ch _).blockSize (s.ch _).blockCount)) h
  | chctl => cases p <;> exact regFront_loads_guarded (v := fun s => .word (s.ch _).control) h

/-! ### The DMA range -/

theorem dmaRead_guarded {T : Width} {o : BitVec 7} {s t : State} (h : dmaRead T o s = .next t) :
    t.guarded = s.guarded := by
  unfold dmaRead at h
  split at h
  · exact raise_guarded h rfl
  · split at h
    · exact rdChannel_guarded h
    · exact regFront_loads_guarded (v := fun s => .word s.dma.control) h
    · exact regFront_loads_guarded (v := fun s => .word s.dma.interrupt) h
    · exact reservedFront_guarded h

/-- A write in the DMA range keeps both registers, or is the word write of the interrupt register, and stores the word (R194). -/
theorem dmaWrite_guarded {o : BitVec 7} {v : Value} {s t : State} (h : dmaWrite o v s = .next t) :
    t.guarded = s.guarded ∨ (o = 0x74#7 ∧ v = .word t.dma.interrupt ∧ t.cacheControl = s.cacheControl) := by
  unfold dmaWrite at h
  split at h
  · split at h
    · exact .inl (wrChannel_guarded h)
    · exact .inl (regFront_guarded h fun h => stores_guarded h rfl)
    · rename_i hsel
      obtain ⟨-, h⟩ := (regFront_next_iff ..).1 h
      obtain rfl := (stores_next_iff _ _).1 h
      exact .inr ⟨(regSel_eq_dmaIrq_iff o).1 hsel, rfl, rfl⟩
    · exact .inl (reservedFront_guarded h)
  · exact .inl (raise_guarded h rfl)
  · exact .inl (raise_guarded h rfl)

/-! ### What a request does to the two registers -/

/-- What a request that led to `t` did to cache control and the interrupt register, which held `g`: it kept both, or it is a write
of one of them. -/
inductive GuardedWrite (g : Word × Word) (t : State) : Request → Prop
  | kept (r : Request) (h : t.guarded = g) : GuardedWrite g t r
  | cacheControl (addr : Word) (ha : maskedIn 0xfffe0130 4 addr) (hi : t.dma.interrupt = g.2) :
      GuardedWrite g t (.store addr (.word t.cacheControl))
  | interruptStore (addr : Word) (ha : maskRegion addr = 0x1f8010f4#32) (hc : t.cacheControl = g.1) :
      GuardedWrite g t (.store addr (.word t.dma.interrupt))
  | interruptWrite (hc : t.cacheControl = g.1) : GuardedWrite g t (.dmaWrite 0x74#7 t.dma.interrupt)

/-- No load changes either register. -/
theorem exec_loadInstr_guarded {T : Width} {addr : Word} {tg : Option Target} {s t : State}
    (h : exec (loadInstr T addr tg) s = .next t) : t.guarded = s.guarded := by
  cases tg with
  | none => exact unmappedFront_guarded h
  | some tg =>
    cases tg with
    | dma => exact busFront_guarded h fun _ => dmaRead_guarded
    | memCtl | ramSize | exp2 | cacheCtl => exact unmappedFront_guarded h
    | _ => exact busFront_guarded h fun _ h => loads_guarded h rfl

theorem execStoreCacheCtl_guarded {addr : Word} {v : Value} {s t : State} (h : execStoreCacheCtl addr v s = .next t) :
    GuardedWrite s.guarded t (.store addr v) := by
  obtain ⟨-, -, o, ho, h⟩ := (busFront_next_iff ..).1 h
  split at h
  · obtain rfl := (stores_next_iff _ _).1 h
    obtain ⟨hlt, hadd⟩ := Range.contains_bounds ho
    have hlen : Target.cacheCtl.range.length.toNat = 4 := rfl
    have hbase : Target.cacheCtl.range.base.toNat = 0xfffe0130 := rfl
    exact .cacheControl addr ⟨by omega, by omega⟩ rfl
  · exact .kept _ (raise_guarded h rfl)
  · exact .kept _ (raise_guarded h rfl)

theorem execStoreDma_guarded {addr : Word} {v : Value} {s t : State} (h : execStoreDma addr v s = .next t) :
    GuardedWrite s.guarded t (.store addr v) := by
  obtain ⟨-, -, o, ho, h⟩ := (busFront_next_iff ..).1 h
  obtain hk | ⟨hoff, rfl, hc⟩ := dmaWrite_guarded h
  · exact .kept _ hk
  · exact .interruptStore addr (maskRegion_of_dma_offset ho hoff) hc

theorem execStoreMemCtl_guarded {addr : Word} {v : Value} {s t : State} (h : execStoreMemCtl addr v s = .next t) :
    t.guarded = s.guarded := by
  refine busFront_guarded h fun o h => ?_
  split at h
  · exact raise_guarded h rfl
  · split at h
    · exact raise_guarded h rfl
    · exact stores_guarded h rfl

theorem exec_storeInstr_guarded {addr : Word} {v : Value} {tg : Option Target} {s t : State}
    (h : exec (storeInstr addr v tg) s = .next t) : GuardedWrite s.guarded t (.store addr v) := by
  cases tg with
  | none => exact .kept _ (unmappedFront_guarded h)
  | some tg =>
    cases tg with
    | dma => exact execStoreDma_guarded h
    | cacheCtl => exact execStoreCacheCtl_guarded h
    | memCtl => exact .kept _ (execStoreMemCtl_guarded h)
    | exp1 | bios => exact .kept _ (unmappedFront_guarded h)
    | ram =>
      have h : execStoreRam addr v s = .next t := h
      exact .kept _ (busFront_guarded h fun _ h => stores_guarded h rfl)
    | gpu =>
      have h : execStoreGpu addr v s = .next t := h
      exact .kept _ (busFront_guarded h fun _ h => stores_guarded h rfl)
    | irq | timers | spu | ramSize | exp2 => exact .kept _ (busFront_guarded h fun _ h => stores_guarded h rfl)

/-- A request that answers a next state kept both registers, or is a write of one of them. -/
theorem decode_exec_guarded {r : Request} {i : Instr} {s t : State} (hd : decode r = .ok i) (h : exec i s = .next t) :
    GuardedWrite s.guarded t r := by
  cases r <;> simp only [decode] at hd <;> split at hd <;> cases hd
  case load => exact .kept _ (exec_loadInstr_guarded h)
  case store => exact exec_storeInstr_guarded h
  case dmaRead => exact .kept _ (dmaRead_guarded (exec_rdInstr _ s ▸ h))
  case dmaWrite =>
    obtain hk | ⟨rfl, hv, hc⟩ := dmaWrite_guarded (exec_wrInstr _ _ s ▸ h)
    · exact .kept _ hk
    · obtain rfl := Value.word.inj hv
      exact .interruptWrite hc

/-! ### What a step does to BIOS and the two registers -/

theorem Effect.bios {s t : State} (h : Effect s t) : t.bios = s.bios := by
  cases h with
  | wrChannel _ _ _ hu | startBlock _ _ _ hu | startList _ _ hu | startFatal _ _ _ hu => cases hu <;> rfl
  | _ => rfl

/-- No step changes BIOS (R22). -/
theorem step_bios {s t : State} (h : step s = .next t) : t.bios = s.bios := by
  obtain rfl | ⟨rs, he⟩ := step_effect h
  · rfl
  · exact he.bios

/-- A step keeps both registers, or runs a request that is one's own write. -/
theorem step_guarded {s t : State} (h : step s = .next t) :
    t.guarded = s.guarded ∨ ∃ r rs, s.requests = r :: rs ∧ GuardedWrite s.guarded t r := by
  obtain ⟨-, ⟨-, -, rfl⟩ | ⟨r, rs, i, -, hr, hd, hx⟩ | ⟨i, hse, -⟩⟩ := step_cases h
  · exact .inl rfl
  · exact .inr ⟨r, rs, hr, decode_exec_guarded (s := { s with requests := rs }) hd hx⟩
  · have hne : s.eng ≠ .idle := fun he => by simp [selectEngine_of_idle he] at hse
    obtain ⟨-, hirq, hcc, -⟩ := (step_engineStep hne h).frame
    exact .inl (Prod.ext hcc hirq)

/-- Settles O52. -/
theorem cacheControlAndBiosChangeOnlyAsStated : Obligations.CacheControlAndBiosChangeOnlyAsStated := by
  refine fun s t h => ⟨step_bios h, ?_⟩
  obtain hk | ⟨r, rs, hr, hw⟩ := step_guarded h
  · obtain ⟨hcc, hirq⟩ := Prod.mk.inj hk
    exact ⟨fun hne => absurd hcc hne, fun hne => absurd hirq hne⟩
  · cases hw with
    | kept _ hk =>
      obtain ⟨hcc, hirq⟩ := Prod.mk.inj hk
      exact ⟨fun hne => absurd hcc hne, fun hne => absurd hirq hne⟩
    | cacheControl addr ha hi => exact ⟨fun _ => ⟨addr, _, rs, hr, ha, rfl⟩, fun hne => absurd hi hne⟩
    | interruptStore addr ha hc => exact ⟨fun hne => absurd hc hne, fun _ => ⟨_, rs, rfl, .inr ⟨addr, hr, ha⟩⟩⟩
    | interruptWrite hc => exact ⟨fun hne => absurd hc hne, fun _ => ⟨_, rs, rfl, .inl hr⟩⟩

end Sys2Proof.Machine

/-!
PROOF. The family 20_memory.md: region masking (R61, R62), the range lookup (R63 to R65, R68), what the request decoder gives (R66,
R67, R71), the gaps between the ranges (R77), the byte order of RAM and BIOS (R70, R86), and the canonical memory of a step (R71, R72).
-/

namespace Sys2Proof

/-! ### Region masking -/

/-- The region of an address is address bits 31:29 (R61). -/
theorem region_toNat (a : Word) : (a.extractLsb' 29 3).toNat = a.toNat / 0x20000000 := by
  rw [BitVec.extractLsb'_toNat, Nat.shiftRight_eq_div_pow]
  omega

theorem region_eq_iff (a : Word) (r : BitVec 3) : a.extractLsb' 29 3 = r ↔ a.toNat / 0x20000000 = r.toNat := by
  rw [← region_toNat, BitVec.toNat_inj]

/-- Regions 0 to 3, and 6 and 7, keep the address (R61). -/
theorem maskRegion_of_unmirrored {a : Word} (h : a.toNat < 0x80000000 ∨ 0xc0000000 ≤ a.toNat) : maskRegion a = a := by
  have h4 : a.extractLsb' 29 3 ≠ 4#3 := by rw [ne_eq, region_eq_iff, BitVec.toNat_ofNat]; omega
  have h5 : a.extractLsb' 29 3 ≠ 5#3 := by rw [ne_eq, region_eq_iff, BitVec.toNat_ofNat]; omega
  rw [maskRegion, regionMask, if_neg h4, if_neg h5]
  exact BitVec.and_allOnes

/-- Region 4, KSEG0, loses bit 31 (R61). -/
theorem maskRegion_of_kseg0 {a : Word} (h : 0x80000000 ≤ a.toNat ∧ a.toNat < 0xa0000000) :
    maskRegion a = a &&& 0x7fffffff#32 := by
  have hr : a.extractLsb' 29 3 = 4#3 := (region_eq_iff a _).2 (by rw [BitVec.toNat_ofNat]; omega)
  rw [maskRegion, hr]
  rfl

/-- Region 5, KSEG1, loses bits 31 to 29 (R61). -/
theorem maskRegion_of_kseg1 {a : Word} (h : 0xa0000000 ≤ a.toNat ∧ a.toNat < 0xc0000000) :
    maskRegion a = a &&& 0x1fffffff#32 := by
  have hr : a.extractLsb' 29 3 = 5#3 := (region_eq_iff a _).2 (by rw [BitVec.toNat_ofNat]; omega)
  rw [maskRegion, hr]
  rfl

/-- Settles O1, region by region. -/
theorem maskRegionUsesTheTable : Obligations.MaskRegionUsesTheTable := by
  have keeps (a : Word) : a &&& 0xffffffff#32 = a := BitVec.and_allOnes
  refine fun a => ⟨fun h => ?_, maskRegion_of_kseg0, maskRegion_of_kseg1, fun h => ?_⟩
  · rw [keeps, maskRegion_of_unmirrored (.inl h)]
  · rw [keeps, maskRegion_of_unmirrored (.inr h)]

/-- Masking moves each of the two mirrored regions down to address 0 and keeps every other address (R62). -/
theorem maskRegion_toNat (a : Word) :
    (maskRegion a).toNat =
      if 0x80000000 ≤ a.toNat ∧ a.toNat < 0xa0000000 then a.toNat - 0x80000000
      else if 0xa0000000 ≤ a.toNat ∧ a.toNat < 0xc0000000 then a.toNat - 0xa0000000
      else a.toNat := by
  split
  · rename_i h
    rw [maskRegion_of_kseg0 h, BitVec.toNat_and, show (0x7fffffff#32).toNat = 2 ^ 31 - 1 from rfl,
      Nat.and_two_pow_sub_one_eq_mod]
    omega
  · split
    · rename_i h
      rw [maskRegion_of_kseg1 h, BitVec.toNat_and, show (0x1fffffff#32).toNat = 2 ^ 29 - 1 from rfl,
        Nat.and_two_pow_sub_one_eq_mod]
      omega
    · rw [maskRegion_of_unmirrored (by omega)]

/-- No masked address lies in a mirrored region (R77). -/
theorem maskRegion_unmirrored (a : Word) : (maskRegion a).toNat < 0x80000000 ∨ 0xc0000000 ≤ (maskRegion a).toNat := by
  rw [maskRegion_toNat]
  split
  · omega
  · split <;> omega

/-- Settles O2: a masked address is unmirrored, so masking it again keeps it; the mirrors are read off the offset by region. -/
theorem maskRegionFoldsTheMirrors : Obligations.MaskRegionFoldsTheMirrors := by
  refine fun a => ⟨maskRegion_of_unmirrored (maskRegion_unmirrored a), fun h => maskRegion_of_unmirrored (by omega),
    fun h => ?_, fun h => ?_, maskRegion_unmirrored a⟩
  · apply BitVec.eq_of_toNat_eq
    rw [maskRegion_toNat, if_pos (by omega), BitVec.toNat_sub, BitVec.toNat_ofNat]
    omega
  · apply BitVec.eq_of_toNat_eq
    rw [maskRegion_toNat, if_neg (by omega), if_pos (by omega), BitVec.toNat_sub, BitVec.toNat_ofNat]
    omega

/-! ### The range lookup -/

/-- A lookup answers the offset inside the range, the end of the range taken in unbounded integers (R64). -/
theorem Range.contains_eq_some_iff (r : Range) (a o : Word) :
    r.contains a = some o ↔
      r.base.toNat ≤ a.toNat ∧ a.toNat < r.base.toNat + r.length.toNat ∧ o.toNat = a.toNat - r.base.toNat := by
  rw [Range.contains_eq_some, BitVec.le_def, BitVec.lt_def, ← BitVec.toNat_inj]
  by_cases h : r.base.toNat ≤ a.toNat
  · rw [BitVec.toNat_sub_of_le (BitVec.le_def.2 h)]
    omega
  · simp [h]

/-- A lookup answers nothing outside the range (R64). -/
theorem Range.contains_eq_none_iff (r : Range) (a : Word) :
    r.contains a = none ↔ a.toNat < r.base.toNat ∨ r.base.toNat + r.length.toNat ≤ a.toNat := by
  rw [Range.contains, ite_eq_right_iff, BitVec.le_def, BitVec.lt_def]
  simp only [reduceCtorEq, imp_false, not_and_or]
  by_cases h : r.base.toNat ≤ a.toNat
  · rw [BitVec.toNat_sub_of_le (BitVec.le_def.2 h)]
    omega
  · omega

/-- Settles O3. -/
theorem rangeLookupGivesTheOffset : Obligations.RangeLookupGivesTheOffset :=
  fun t a => ⟨t.range.contains_eq_some_iff a, t.range.contains_eq_none_iff a⟩

/-- Of two ranges of the map one ends before the other begins (R63, R65). -/
theorem Target.range_apart (t u : Target) :
    t ≠ u → t.range.base.toNat + t.range.length.toNat ≤ u.range.base.toNat ∨
      u.range.base.toNat + u.range.length.toNat ≤ t.range.base.toNat := by
  cases t <;> cases u <;> decide

/-- No address lies in two ranges (R65). -/
theorem Target.contains_disjoint {t u : Target} (h : t ≠ u) (a : Word) :
    t.range.contains a = none ∨ u.range.contains a = none := by
  have := t.range_apart u h
  rw [Range.contains_eq_none_iff, Range.contains_eq_none_iff]
  omega

theorem lookup_eq_none_iff (ts : List Target) (a : Word) : lookup ts a = none ↔ ∀ t ∈ ts, t.range.contains a = none := by
  simp [lookup]

/-- At most one range holds an address, so a lookup finds it wherever it stands in the list (R68). -/
theorem lookup_eq_some_iff (ts : List Target) (t : Target) (a : Word) :
    lookup ts a = some t ↔ t ∈ ts ∧ t.range.contains a ≠ none := by
  constructor
  · intro h
    obtain ⟨hmem, o, ho⟩ := lookup_some h
    exact ⟨hmem, by simp [ho]⟩
  · rintro ⟨hmem, hin⟩
    cases hl : lookup ts a with
    | none => exact absurd ((lookup_eq_none_iff ts a).1 hl t hmem) hin
    | some u =>
      obtain ⟨-, o, ho⟩ := lookup_some hl
      by_cases hut : u = t
      · rw [hut]
      · exact absurd ((Target.contains_disjoint hut a).resolve_left (by simp [ho])) hin

/-- Settles O4. -/
theorem rangesArePairwiseDisjoint : Obligations.RangesArePairwiseDisjoint :=
  ⟨fun _ _ a h => Target.contains_disjoint h a, lookup_eq_some_iff⟩

/-! ### What the request decoder gives -/

/-- An aligned load decodes to a well-formed row: the row of a load range, or the row of no range (R66). -/
theorem loadInstr_wf {T : Width} {addr : Word} (ha : aligned T addr = true) :
    (loadInstr T addr (loadTarget addr)).wf = true := by
  cases ht : loadTarget addr with
  | none => simp [loadInstr, Instr.wf, wfLoad, ha, ht]
  | some t =>
    have hmem : t ∈ loadTargets := (lookup_some ht).1
    cases t with
    | memCtl | ramSize | exp2 | cacheCtl => exact absurd hmem (by decide)
    | _ => simp [loadInstr, Instr.wf, wfLoad, ha, ht]

/-- An aligned store decodes to a well-formed row: the row of a store range, or the row of no range (R67). -/
theorem storeInstr_wf {addr : Word} {v : Value} (ha : aligned v.width addr = true) :
    (storeInstr addr v (storeTarget addr)).wf = true := by
  cases ht : storeTarget addr with
  | none => simp [storeInstr, Instr.wf, wfStore, ha, ht]
  | some t =>
    have hmem : t ∈ storeTargets := (lookup_some ht).1
    cases t with
    | exp1 | bios => exact absurd hmem (by decide)
    | _ => simp [storeInstr, Instr.wf, wfStore, ha, ht]

/-- An aligned offset reads through a well-formed row: only the reserved one has an operand to check (R110). -/
theorem rdInstr_wf {off : BitVec 7} (ha : alignedOffset off = true) : (rdInstr off).wf = true := by
  unfold rdInstr
  cases hsel : regSel off with
  | channel p r => cases p <;> cases r <;> rfl
  | dmaCtl | dmaIrq => rfl
  | reserved => simp [Instr.wf, wfReserved, ha, hsel]

/-- An aligned offset is written through a well-formed row (R110). -/
theorem wrInstr_wf {off : BitVec 7} (val : Word) (ha : alignedOffset off = true) : (wrInstr off val).wf = true := by
  unfold wrInstr
  cases hsel : regSel off with
  | channel p r => cases p <;> cases r <;> rfl
  | dmaCtl | dmaIrq => rfl
  | reserved => simp [Instr.wf, wfReserved, ha, hsel]

/-- What a request decodes to is well formed (R66, R67, R110). -/
theorem decode_wf {r : Request} {i : Instr} (h : decode r = .ok i) : i.wf = true := by
  cases r <;> simp only [decode] at h <;> split at h <;> cases h
  case load ha => exact loadInstr_wf ha
  case store ha => exact storeInstr_wf ha
  case dmaRead ha => exact rdInstr_wf ha
  case dmaWrite val ha => exact wrInstr_wf val ha

/-- A decoder that checks one condition first rejects exactly where it fails (R297 (1)). -/
theorem ite_ok_eq_misaligned_iff (c : Bool) (i : Instr) :
    (if c then Except.ok i else .error DecodeError.misaligned) = .error DecodeError.misaligned ↔ c ≠ true := by
  cases c <;> simp

/-- Settles O45. -/
theorem decodedInstructionsAreWellFormed : Obligations.DecodedInstructionsAreWellFormed := by
  refine ⟨fun _ _ => decode_wf, fun T addr => ?_, fun addr v => ?_, fun off => ?_, fun off val => ?_⟩
  · rw [decode, ite_ok_eq_misaligned_iff, aligned, ne_eq, beq_iff_eq]
  · rw [decode, ite_ok_eq_misaligned_iff, aligned, ne_eq, beq_iff_eq]
  · rw [decode, ite_ok_eq_misaligned_iff, alignedOffset, ne_eq, beq_iff_eq]
  · rw [decode, ite_ok_eq_misaligned_iff, alignedOffset, ne_eq, beq_iff_eq]

end Sys2Proof

namespace Sys2Proof.Machine

/-! ### The gaps between the ranges -/

/-- The eleven gaps are what the twelve ranges leave (R63, R77). -/
theorem contains_eq_none_iff_inGap (a : Word) : (∀ t : Target, t.range.contains a = none) ↔ inGap a.toNat := by
  simp only [Range.contains_eq_none_iff]
  constructor
  · intro h
    have hram := h .ram; have hexp1 := h .exp1; have hbios := h .bios; have hmemCtl := h .memCtl
    have hramSize := h .ramSize; have hirq := h .irq; have hdma := h .dma; have htimers := h .timers
    have hgpu := h .gpu; have hspu := h .spu; have hexp2 := h .exp2; have hcacheCtl := h .cacheCtl
    simp only [Target.range, BitVec.toNat_ofNat] at hram hexp1 hbios hmemCtl hramSize hirq hdma htimers hgpu hspu hexp2 hcacheCtl
    unfold inGap
    omega
  · intro h t
    unfold inGap at h
    cases t <;> simp only [Target.range, BitVec.toNat_ofNat] <;> omega

/-- No list of ranges answers an address in a gap. -/
theorem lookup_of_inGap (ts : List Target) {a : Word} (h : inGap a.toNat) : lookup ts a = none :=
  (lookup_eq_none_iff ts a).2 fun t _ => (contains_eq_none_iff_inGap a).2 h t

theorem State.ready.not_busy {s : State} (hs : s.ready) : s.busy = false := (State.busy_eq_false_iff s).2 hs

/-- An aligned load that no load range answers is fatal, F1 (R150, R281). -/
theorem exec_loadUnmapped {T : Width} {addr : Word} {s : State} (hs : s.ready) (ha : aligned T addr = true)
    (ht : loadTarget addr = none) :
    exec (.loadUnmapped T addr) s =
      .next { s with halt := some (.unmappedLoad addr (maskRegion addr) T), reply := none } := by
  rw [exec, execLoadUnmapped, ht, unmappedFront_of_ready _ hs.not_busy ha]
  rfl

/-- An aligned store that no store range answers is fatal, F2 (R162, R282). -/
theorem exec_storeUnmapped {addr : Word} {v : Value} {s : State} (hs : s.ready) (ha : aligned v.width addr = true)
    (ht : storeTarget addr = none) :
    exec (.storeUnmapped addr v) s =
      .next { s with halt := some (.unmappedStore addr (maskRegion addr) v), reply := none } := by
  rw [exec, execStoreUnmapped, ht, unmappedFront_of_ready _ hs.not_busy ha]
  rfl

/-- Settles O5. -/
theorem unmappedGapsAreExactlyTheEleven : Obligations.UnmappedGapsAreExactlyTheEleven :=
  ⟨contains_eq_none_iff_inGap, maskRegion_unmirrored,
    fun _ _ _ hs ha hg => exec_loadUnmapped hs ha (lookup_of_inGap _ hg),
    fun _ _ _ hs ha hg => exec_storeUnmapped hs ha (lookup_of_inGap _ hg), by decide, by decide⟩

/-! ### The byte order -/

/-- An append is a sum: the high part stands above the low one's bits. -/
theorem append_toNat {m n : Nat} (x : BitVec m) (y : BitVec n) : (x ++ y).toNat = x.toNat * 2 ^ n + y.toNat := by
  rw [BitVec.toNat_append, ← Nat.shiftLeft_add_eq_or_of_lt y.isLt, Nat.shiftLeft_eq]

/-- In a sum of bytes by their place the first byte stands at place 0 and the others one place higher than among themselves. -/
theorem sum_bytes_succ (f : Nat → Nat) (n : Nat) :
    ((List.range (n + 1)).map fun i => f i * 2 ^ (8 * i)).sum =
      ((List.range n).map fun i => f (i + 1) * 2 ^ (8 * i)).sum * 2 ^ 8 + f 0 := by
  rw [List.range_succ_eq_map, List.map_cons, List.sum_cons, List.map_map, ← List.sum_map_mul_right, Nat.add_comm]
  simp [Function.comp_def, Nat.mul_add, Nat.pow_add, Nat.mul_assoc]

/-- A read is the sum of the bytes, each at its place (R70). -/
theorem memRead_toNat (space : Nat → Byte) (off : Nat) (T : Width) :
    (asU32 (memRead space off T)).toNat =
      ((List.range T.bytes).map fun i => (space (off + i)).toNat * 2 ^ (8 * i)).sum := by
  cases T with
  | byte =>
    rw [memRead, asU32, BitVec.toNat_setWidth_of_le (by decide), Width.bytes, sum_bytes_succ]
    simp
  | half =>
    rw [memRead, asU32, BitVec.toNat_setWidth_of_le (by decide), append_toNat, Width.bytes, sum_bytes_succ, sum_bytes_succ]
    simp
  | word =>
    rw [memRead, asU32, wordOfBytes, append_toNat, append_toNat, append_toNat, Width.bytes, sum_bytes_succ, sum_bytes_succ,
      sum_bytes_succ, sum_bytes_succ]
    simp

/-- Byte `i` of a value is bits `8 i + 7` to `8 i` of the word it widens to (R70). -/
theorem valueBytes_getElem (v : Value) (i : Nat) (h : i < (valueBytes v).length) :
    (valueBytes v)[i] = (asU32 v).extractLsb' (8 * i) 8 := by
  rw [valueBytes_length] at h
  cases v with
  | byte b =>
    obtain rfl : i = 0 := Nat.lt_one_iff.1 h
    rw [asU32, BitVec.extractLsb'_setWidth_of_le (by decide)]
    exact BitVec.extractLsb'_eq_self.symm
  | half w =>
    rw [asU32, BitVec.extractLsb'_setWidth_of_le (by simp only [Value.width, Width.bytes] at h; omega)]
    obtain rfl | rfl : i = 0 ∨ i = 1 := by simp only [Value.width, Width.bytes] at h; omega
    · rfl
    · rfl
  | word w =>
    obtain rfl | rfl | rfl | rfl : i = 0 ∨ i = 1 ∨ i = 2 ∨ i = 3 := by simp only [Value.width, Width.bytes] at h; omega
    all_goals rfl

/-- Byte `i` of a stored value reads back as bits `8 i + 7` to `8 i` of it (R70). -/
theorem State.ramWrite_ramByte_eq_extract (s : State) (off : Word) (v : Value) {i : Nat} (hi : i < v.width.bytes) :
    (s.ramWrite off v).ramByte (off.toNat + i) = (asU32 v).extractLsb' (8 * i) 8 := by
  have hi' : i < (valueBytes v).length := by simpa using hi
  rw [s.ramWrite_ramByte_of_inside off v i hi', valueBytes_getElem]

/-- After a byte store that byte reads as stored and every other as before (R70). -/
theorem State.ramWrite_byte_ramByte (s : State) (off : Word) (b : Byte) (y : Nat) :
    (s.ramWrite off (.byte b)).ramByte y = if y = off.toNat then b else s.ramByte y := by
  rw [State.ramByte, State.ramWrite_ram, valueBytes, Memory.putBytes, Memory.putBytes, Memory.get?_put]
  split
  · rfl
  · rfl

/-- Settles O7. -/
theorem memoryIsLittleEndian : Obligations.MemoryIsLittleEndian :=
  ⟨memRead_toNat, fun _ _ _ => rfl, fun _ _ _ => rfl, fun s off v =>
    ⟨fun _ hi => s.ramWrite_ramByte_eq_extract off v hi, s.ramWrite_ramByte_of_outside off v⟩⟩

/-! ### Loads and stores of RAM -/

/-- In RAM the offset is the masked address (R63, R64). -/
theorem ram_contains_of_maskedIn {a : Word} (hm : maskedIn 0 0x200000 a) :
    Target.ram.range.contains (maskRegion a) = some (maskRegion a) :=
  (Range.contains_eq_some_iff ..).2 ⟨hm.1, hm.2, rfl⟩

/-- An accepted aligned load of RAM answers the bytes at its masked address and changes nothing (R142). -/
theorem exec_loadRam {T : Width} {a : Word} {s : State} (hs : s.ready) (ha : aligned T a = true)
    (hm : maskedIn 0 0x200000 a) :
    exec (.loadRam T a) s =
      .next { s with reply := some (.loaded (memRead s.ramByte (maskRegion a).toNat T)) } := by
  rw [exec, execLoadRam, busFront_of_ready _ hs.not_busy ha (ram_contains_of_maskedIn hm)]
  rfl

/-- An accepted aligned store in RAM writes its value at its masked address (R152). -/
theorem exec_storeRam {a : Word} {v : Value} {s : State} (hs : s.ready) (ha : aligned v.width a = true)
    (hm : maskedIn 0 0x200000 a) :
    exec (.storeRam a v) s = .next ((s.begin.ramWrite (maskRegion a) v).returned .stored) := by
  rw [exec, execStoreRam, busFront_of_ready _ hs.not_busy ha (ram_contains_of_maskedIn hm)]
  rfl

/-! ### Accesses inside one aligned word -/

/-- The bytes of an aligned word keep their places under masking: a region ends where a word ends (R62, R71). -/
theorem maskRegion_add_toNat {a : Word} (ha : aligned .word a = true) {k : Nat} (hk : k < 4) :
    (maskRegion (a + BitVec.ofNat 32 k)).toNat = (maskRegion a).toNat + k := by
  simp only [aligned, Width.bytes, beq_iff_eq] at ha
  have hadd : (a + BitVec.ofNat 32 k).toNat = a.toNat + k := by
    rw [BitVec.toNat_add, BitVec.toNat_ofNat]
    omega
  rw [maskRegion_toNat, maskRegion_toNat, hadd]
  split_ifs <;> omega

/-- A word-aligned address is aligned for every width (R71). -/
theorem aligned_of_word {a : Word} (ha : aligned .word a = true) (T : Width) : aligned T a = true := by
  simp only [aligned, Width.bytes, beq_iff_eq] at ha
  cases T <;> simp only [aligned, Width.bytes, beq_iff_eq] <;> omega

section
variable {a : Word} (ha : aligned .word a = true) {k : Nat} (hk : k < 4)
include ha hk

/-- An access inside an aligned word is aligned where its place in the word is a multiple of its width (R71). -/
theorem aligned_add {T : Width} (hT : k % T.bytes = 0) : aligned T (a + BitVec.ofNat 32 k) = true := by
  simp only [aligned, Width.bytes, beq_iff_eq] at ha
  rw [aligned, beq_iff_eq, BitVec.toNat_add, BitVec.toNat_ofNat]
  cases T <;> simp only [Width.bytes] at hT ⊢ <;> omega

/-- An aligned word that starts in RAM lies in it (R71). -/
theorem maskedIn_add (hm : maskedIn 0 0x200000 a) : maskedIn 0 0x200000 (a + BitVec.ofNat 32 k) := by
  have hin : (maskRegion a).toNat + 4 ≤ 0x200000 := access_inside (.inl rfl) ha (ram_contains_of_maskedIn hm)
  rw [maskedIn, maskRegion_add_toNat ha hk]
  omega

/-- A load inside an aligned word of RAM answers the bytes at its place. -/
theorem exec_loadRam_add (hm : maskedIn 0 0x200000 a) {T : Width} (hT : k % T.bytes = 0) {s : State} (hs : s.ready) :
    exec (.loadRam T (a + BitVec.ofNat 32 k)) s =
      .next { s with reply := some (.loaded (memRead s.ramByte ((maskRegion a).toNat + k) T)) } := by
  rw [exec_loadRam hs (aligned_add ha hk hT) (maskedIn_add ha hk hm), maskRegion_add_toNat ha hk]

/-- A byte store inside an aligned word of RAM sets the byte at its place and no other. -/
theorem exec_storeByte_add (hm : maskedIn 0 0x200000 a) (b : Byte) {s : State} (hs : s.ready) :
    ∃ t, exec (.storeRam (a + BitVec.ofNat 32 k) (.byte b)) s = .next t ∧ t.ready ∧
      ∀ j, t.ramByte ((maskRegion a).toNat + j) = if j = k then b else s.ramByte ((maskRegion a).toNat + j) := by
  refine ⟨_, exec_storeRam hs (aligned_add ha hk (Nat.mod_one k)) (maskedIn_add ha hk hm), hs, fun j => ?_⟩
  rw [State.returned_ramByte, State.ramWrite_byte_ramByte, maskRegion_add_toNat ha hk, State.begin_ramByte]
  simp only [Nat.add_left_cancel_iff]

end

/-- A word store in RAM sets the four bytes at its masked address. -/
theorem exec_storeWord {a : Word} (ha : aligned .word a = true) (hm : maskedIn 0 0x200000 a) (w : Word) {s : State}
    (hs : s.ready) :
    ∃ t, exec (.storeRam a (.word w)) s = .next t ∧ t.ready ∧
      ∀ i < 4, t.ramByte ((maskRegion a).toNat + i) = w.extractLsb' (8 * i) 8 :=
  ⟨_, exec_storeRam hs ha hm, hs, fun _ hi => s.begin.ramWrite_ramByte_eq_extract _ (.word w) hi⟩

/-- Narrow loads and the engine see the bytes a word store left (R86). -/
theorem narrowLoads_of_wordStore {a : Word} {s : State} (hs : s.ready) (ha : aligned .word a = true)
    (hm : maskedIn 0 0x200000 a) :
    ∃ t, exec (.storeRam a (.word 0x44332211#32)) s = .next t ∧
      exec (.loadRam .byte a) t = .next { t with reply := some (.loaded (.byte 0x11#8)) } ∧
      exec (.loadRam .byte (a + 1#32)) t = .next { t with reply := some (.loaded (.byte 0x22#8)) } ∧
      exec (.loadRam .half a) t = .next { t with reply := some (.loaded (.half 0x2211#16)) } ∧
      exec (.loadRam .half (a + 2#32)) t = .next { t with reply := some (.loaded (.half 0x4433#16)) } ∧
      t.ramWord (maskRegion a) = 0x44332211#32 := by
  obtain ⟨t, hx, ht, hb⟩ := exec_storeWord ha hm 0x44332211#32 hs
  have h0 : t.ramByte (maskRegion a).toNat = 0x11#8 := hb 0 (by decide)
  have h1 : t.ramByte ((maskRegion a).toNat + 1) = 0x22#8 := hb 1 (by decide)
  have h2 : t.ramByte ((maskRegion a).toNat + 2) = 0x33#8 := hb 2 (by decide)
  have h3 : t.ramByte ((maskRegion a).toNat + 3) = 0x44#8 := hb 3 (by decide)
  refine ⟨t, hx, ?_, ?_, ?_, ?_, ?_⟩
  · rw [exec_loadRam ht (aligned_of_word ha .byte) hm, memRead, h0]
  · rw [exec_loadRam_add ha (k := 1) (by decide) hm rfl ht, memRead, h1]
  · rw [exec_loadRam ht (aligned_of_word ha .half) hm, memRead, h0, h1]
    rfl
  · rw [exec_loadRam_add ha (k := 2) (by decide) hm rfl ht, memRead, h2, h3]
    rfl
  · rw [State.ramWord, State.ramRead, memRead, h0, h1, h2, h3]
    rfl

/-- A word load sees the bytes four byte stores left (R86). -/
theorem wordLoad_of_byteStores {a : Word} {s : State} (b0 b1 b2 b3 : Byte) (hs : s.ready) (ha : aligned .word a = true)
    (hm : maskedIn 0 0x200000 a) :
    ∃ t0 t1 t2 t3, exec (.storeRam a (.byte b0)) s = .next t0 ∧ exec (.storeRam (a + 1#32) (.byte b1)) t0 = .next t1 ∧
      exec (.storeRam (a + 2#32) (.byte b2)) t1 = .next t2 ∧ exec (.storeRam (a + 3#32) (.byte b3)) t2 = .next t3 ∧
      exec (.loadRam .word a) t3 = .next { t3 with reply := some (.loaded (.word (b3 ++ b2 ++ b1 ++ b0))) } := by
  obtain ⟨t0, hx0, ht0, hb0⟩ := exec_storeByte_add ha (k := 0) (by decide) hm b0 hs
  obtain ⟨t1, hx1, ht1, hb1⟩ := exec_storeByte_add ha (k := 1) (by decide) hm b1 ht0
  obtain ⟨t2, hx2, ht2, hb2⟩ := exec_storeByte_add ha (k := 2) (by decide) hm b2 ht1
  obtain ⟨t3, hx3, ht3, hb3⟩ := exec_storeByte_add ha (k := 3) (by decide) hm b3 ht2
  have hbytes (j : Nat) : t3.ramByte ((maskRegion a).toNat + j) =
      if j = 3 then b3 else if j = 2 then b2 else if j = 1 then b1 else if j = 0 then b0
      else s.ramByte ((maskRegion a).toNat + j) := by
    rw [hb3, hb2, hb1, hb0]
  rw [BitVec.add_zero] at hx0
  refine ⟨t0, t1, t2, t3, hx0, hx1, hx2, hx3, ?_⟩
  rw [exec_loadRam ht3 ha hm, memRead, hbytes 1, hbytes 2, hbytes 3, show t3.ramByte (maskRegion a).toNat = b0 from hbytes 0]
  rfl

/-- Settles O8. -/
theorem mixedWidthsSeeTheSameBytes : Obligations.MixedWidthsSeeTheSameBytes :=
  ⟨fun _ _ => narrowLoads_of_wordStore, fun _ b0 b1 b2 b3 _ => wordLoad_of_byteStores b0 b1 b2 b3⟩

/-! ### The canonical memory of a step -/

/-- An effect keeps RAM canonical: of its two writes an aligned store stays inside RAM (R71), and so does an engine word (R72). -/
theorem Effect.ram_wf {s t : State} (h : Effect s t) (hm : Memory.wf s.ram Config.ramSize = true) :
    Memory.wf t.ram Config.ramSize = true := by
  cases h with
  | storeRam _ o v ho => exact s.begin.ramWrite_wf o v hm ho
  | blockOtcWord _ addr _ _ w => exact s.ramWrite_wf (windowAddr addr) (.word w) hm (windowAddr_bounds addr).2
  | wrChannel _ _ _ hu | startBlock _ _ _ hu | startList _ _ hu | startFatal _ _ _ hu => cases hu <;> exact hm
  | _ => exact hm

/-- Settles O49: a step that waits changes nothing, and every effect keeps RAM canonical and BIOS as it is. -/
theorem everyStepKeepsTheMemoryCanonical : Obligations.EveryStepKeepsTheMemoryCanonical := by
  intro s t ⟨hram, hbios⟩ h
  obtain rfl | ⟨rs, he⟩ := step_effect h
  · exact ⟨hram, hbios⟩
  · exact ⟨he.ram_wf hram, he.bios ▸ hbios⟩

end Sys2Proof.Machine

/-!
PROOF. The family 30_encoding.md: the decoder gives back what the encoder took (R101, R110), and the rows without an encoding (R132).
-/

namespace Sys2Proof

/-! ### Decoding an encoded row -/

/-- An aligned load decodes to the row of its target (R66). -/
theorem decode_load_of_wf {T : Width} {addr : Word} {t : Option Target} (h : wfLoad T addr t = true) :
    decode (.load T addr) = .ok (loadInstr T addr t) := by
  rw [wfLoad, Bool.and_eq_true, beq_iff_eq] at h
  obtain ⟨ha, rfl⟩ := h
  rw [decode, if_pos ha]

/-- An aligned store decodes to the row of its target (R67). -/
theorem decode_store_of_wf {addr : Word} {v : Value} {t : Option Target} (h : wfStore addr v t = true) :
    decode (.store addr v) = .ok (storeInstr addr v t) := by
  rw [wfStore, Bool.and_eq_true, beq_iff_eq] at h
  obtain ⟨ha, rfl⟩ := h
  rw [decode, if_pos ha]

/-- A read of a reserved offset decodes to the reserved row, which keeps the offset (R187). -/
theorem decode_dmaRead_of_wf {off : BitVec 7} (h : wfReserved off = true) :
    decode (.dmaRead off) = .ok (.rdReserved off) := by
  rw [wfReserved, Bool.and_eq_true, beq_iff_eq] at h
  obtain ⟨ha, hsel⟩ := h
  rw [decode, if_pos ha, rdInstr, hsel]

/-- A write of a reserved offset decodes to the reserved row, which keeps the offset (R195). -/
theorem decode_dmaWrite_of_wf {off : BitVec 7} (val : Word) (h : wfReserved off = true) :
    decode (.dmaWrite off val) = .ok (.wrReserved off val) := by
  rw [wfReserved, Bool.and_eq_true, beq_iff_eq] at h
  obtain ⟨ha, hsel⟩ := h
  rw [decode, if_pos ha, wrInstr, hsel]

/-- A bus or reserved row is decoded by its operand check, a register row by computing at the offset of R110, and an engine row has
no encoding. -/
theorem decode_encode {i : Instr} {r : Request} (hwf : i.wf = true) (he : encode i = some r) : decode r = .ok i := by
  cases i <;> cases he
  case loadRam | loadBios | loadIrq | loadDma | loadGpu | loadTimers | loadSpu | loadExp1 | loadUnmapped =>
    exact decode_load_of_wf hwf
  case storeRam | storeIrq | storeDma | storeGpu | storeTimers | storeSpu | storeCacheCtl | storeMemCtl | storeRamSize |
      storeExp2 | storeUnmapped =>
    exact decode_store_of_wf hwf
  case rdReserved => exact decode_dmaRead_of_wf hwf
  case wrReserved => exact decode_dmaWrite_of_wf _ hwf
  all_goals rfl

/-! ### The rows without an encoding -/

/-- The rows of the ENGINE group are the ones the engine state selects, so no request encodes them (R132). -/
theorem encode_eq_none_iff (i : Instr) :
    encode i = none ↔
      (∃ p, i = .engBlockStart p ∨ i = .engListStart p) ∨
        i ∈ [.engBlockGpuWord, .engBlockFromRamFatal, .engBlockOtcWord, .engBlockToRamFatal, .engBlockDone,
          .engListHeader, .engListWord, .engListNext, .engListEnd] := by
  constructor
  · intro h
    cases i with
    | engBlockStart p => exact .inl ⟨p, .inl rfl⟩
    | engListStart p => exact .inl ⟨p, .inr rfl⟩
    | engBlockGpuWord | engBlockFromRamFatal | engBlockOtcWord | engBlockToRamFatal | engBlockDone
    | engListHeader | engListWord | engListNext | engListEnd => exact .inr (by decide)
    | _ => cases h
  · rintro (⟨p, rfl | rfl⟩ | h)
    · rfl
    · rfl
    · revert i
      decide

/-- Settles O44. -/
theorem decodeInvertsEncode : Obligations.DecodeInvertsEncode :=
  ⟨fun _ _ => decode_encode, encode_eq_none_iff⟩

/-- Settles O46: the operations are written out, so the decoder computes each row. -/
theorem sampleRequestsDecodeToTheirRows : Obligations.SampleRequestsDecodeToTheirRows := by
  unfold Obligations.SampleRequestsDecodeToTheirRows
  decide

end Sys2Proof

/-!
PROOF. The family 40_bus_load_store.md: the bus operation of the ready block in a range (R140, R141), the loads (R142 to R150), the
stores (R152 to R162), and the register accesses of the DMA range (R145, R154, R180).
-/

namespace Sys2Proof.Machine

/-! ### A bus operation in a range, and outside the ranges tried -/

/-- A lookup answers nothing exactly where the masked address is not in the range (R64). -/
theorem contains_maskRegion_eq_none_iff (t : Target) (addr : Word) :
    t.range.contains (maskRegion addr) = none ↔ ¬ maskedIn t.range.base.toNat t.range.length.toNat addr := by
  rw [Range.contains_eq_none_iff, maskedIn]
  omega

/-- The ready block runs an aligned operation in the row's range at the zero-based offset (R64, R140, R141). -/
theorem busFront_of_maskedIn {T : Width} {t : Target} {addr : Word} {s : State} {k : Word → State → Out} (hs : s.ready)
    (ha : aligned T addr = true) (hm : maskedIn t.range.base.toNat t.range.length.toNat addr) :
    busFront T addr t s k = k (maskRegion addr - t.range.base) s.begin := by
  refine busFront_of_ready k hs.not_busy ha ((Range.contains_eq_some_iff ..).2 ⟨hm.1, hm.2, ?_⟩)
  exact BitVec.toNat_sub_of_le (BitVec.le_def.2 hm.1)

/-! ### Loads -/

@[simp] theorem fromU32_width (T : Width) (v : Word) : (fromU32 T v).width = T := by cases T <;> rfl

/-- An accepted aligned load of BIOS answers the bytes of the image at its offset and changes nothing (R143). -/
theorem exec_loadBios {T : Width} {addr : Word} {s : State} (hs : s.ready) (ha : aligned T addr = true)
    (hm : maskedIn 0x1fc00000 0x80000 addr) :
    exec (.loadBios T addr) s =
      .next { s with reply := some (.loaded (memRead s.biosByte ((maskRegion addr).toNat - 0x1fc00000) T)) } := by
  have hoff : (maskRegion addr - Target.bios.range.base).toNat = (maskRegion addr).toNat - 0x1fc00000 :=
    BitVec.toNat_sub_of_le (BitVec.le_def.2 hm.1)
  rw [← hoff]
  exact busFront_of_maskedIn (t := .bios) hs ha hm

/-- Settles O9. -/
theorem memoryLoadsReturnTheBytes : Obligations.MemoryLoadsReturnTheBytes :=
  fun _ _ _ hs ha => ⟨exec_loadRam hs ha, exec_loadBios hs ha⟩

/-- Settles O10: each row is the bus operation of its range, and returns its constant at every offset. -/
theorem stubLoadsAnswerTheirConstant : Obligations.StubLoadsAnswerTheirConstant :=
  fun _ _ _ hs ha =>
    ⟨fun hm => busFront_of_maskedIn (t := .irq) hs ha hm, fun hm => busFront_of_maskedIn (t := .timers) hs ha hm,
      fun hm => busFront_of_maskedIn (t := .spu) hs ha hm, fun hm => busFront_of_maskedIn (t := .exp1) hs ha hm⟩

/-- Settles O11: the free value is narrowed to the width (log entry 10). -/
theorem loadGpuRecordsTheCallAndAnswersAnyValue : Obligations.LoadGpuRecordsTheCallAndAnswersAnyValue :=
  fun T _ _ hs ha hm => ⟨_, fromU32_width T _, busFront_of_maskedIn (t := .gpu) hs ha hm⟩

/-- Settles O12: none of the eight load ranges answers the address. -/
theorem loadUnmappedHaltsWithF1 : Obligations.LoadUnmappedHaltsWithF1 := by
  intro T addr s hs ha hram hbios hirq hdma hgpu htimers hspu hexp1
  refine exec_loadUnmapped hs ha ((lookup_eq_none_iff ..).2 fun t ht => (contains_maskRegion_eq_none_iff t addr).2 ?_)
  cases t with
  | ram => exact hram
  | bios => exact hbios
  | irq => exact hirq
  | dma => exact hdma
  | gpu => exact hgpu
  | timers => exact htimers
  | spu => exact hspu
  | exp1 => exact hexp1
  | memCtl | ramSize | exp2 | cacheCtl => exact absurd ht (by decide)

/-! ### Stores -/

/-- A value stored in RAM reads back at its width (R70). -/
theorem State.ramWrite_ramRead (s : State) (off : Word) (v : Value) : (s.ramWrite off v).ramRead off v.width = v := by
  cases v with
  | byte b => exact congrArg Value.byte (by rw [State.ramWrite_byte_ramByte, if_pos rfl])
  | half h =>
    have h0 : (s.ramWrite off (.half h)).ramByte off.toNat = h.extractLsb' 0 8 :=
      s.ramWrite_ramByte_of_inside off (.half h) 0 Nat.zero_lt_two
    have h1 : (s.ramWrite off (.half h)).ramByte (off.toNat + 1) = h.extractLsb' 8 8 :=
      s.ramWrite_ramByte_of_inside off (.half h) 1 Nat.one_lt_two
    have happ : h.extractLsb' 8 8 ++ h.extractLsb' 0 8 = h :=
      (BitVec.extractLsb'_append_extractLsb'_eq_extractLsb' rfl).trans BitVec.extractLsb'_eq_self
    rw [State.ramRead, Value.width, memRead, h0, h1, happ]
  | word w => exact congrArg Value.word (s.ramWrite_ramWord off w)

/-- Settles O14. -/
theorem storeRamChangesExactlyItsBytes : Obligations.StoreRamChangesExactlyItsBytes :=
  fun addr v s hs ha hm =>
    ⟨_, exec_storeRam hs ha hm, rfl, s.begin.ramWrite_ramRead (maskRegion addr) v,
      s.begin.ramWrite_ramByte_of_outside (maskRegion addr) v⟩

/-- Settles O15: each row is the bus operation of its range, and returns at every offset. -/
theorem stubStoresAreDropped : Obligations.StubStoresAreDropped :=
  fun _ _ _ hs ha =>
    ⟨fun hm => busFront_of_maskedIn (t := .irq) hs ha hm, fun hm => busFront_of_maskedIn (t := .timers) hs ha hm,
      fun hm => busFront_of_maskedIn (t := .spu) hs ha hm, fun hm => busFront_of_maskedIn (t := .ramSize) hs ha hm,
      fun hm => busFront_of_maskedIn (t := .exp2) hs ha hm⟩

/-- Settles O16. -/
theorem storeGpuRecordsTheCall : Obligations.StoreGpuRecordsTheCall := by
  intro addr v s hs ha hm
  rw [exec, execStoreGpu, busFront_of_maskedIn (t := .gpu) hs ha hm]
  rfl

/-- Settles O17, by the kind of the value. -/
theorem storeCacheCtlIsWordOnly : Obligations.StoreCacheCtlIsWordOnly := by
  intro addr v s hs ha hm
  rw [exec, execStoreCacheCtl, busFront_of_maskedIn (t := .cacheCtl) hs ha hm]
  refine ⟨?_, fun hv => ?_⟩
  · rintro w rfl
    exact ⟨_, rfl, rfl, rfl, rfl⟩
  · cases v with
    | word w => exact absurd rfl hv
    | byte b | half h => rfl

/-- The masked address of an offset in memory control (R63). -/
theorem memCtl_offset_eq_iff (addr o : Word) :
    maskRegion addr - Target.memCtl.range.base = o ↔ maskRegion addr = o + 0x1f801000#32 :=
  BitVec.sub_eq_iff_eq_add

/-- Settles O18: the three clauses are the three branches of the store, the compared offset turned into its address. -/
theorem storeMemCtlChecksTheExpansionBases : Obligations.StoreMemCtlChecksTheExpansionBases := by
  intro addr v s hs ha hm
  have hoff := memCtl_offset_eq_iff addr
  rw [exec, execStoreMemCtl, busFront_of_maskedIn (t := .memCtl) hs ha hm]
  refine ⟨fun ⟨haddr, hv⟩ => ?_, fun ⟨haddr, hv⟩ => ?_, fun h0 h4 => ?_⟩
  · rw [(hoff 0#32).2 haddr, if_pos ⟨rfl, hv⟩]
    rfl
  · rw [(hoff 4#32).2 haddr, if_neg (by simp), if_pos ⟨rfl, hv⟩]
    rfl
  · rw [if_neg fun h => h0 ⟨(hoff 0#32).1 h.1, h.2⟩, if_neg fun h => h4 ⟨(hoff 4#32).1 h.1, h.2⟩]
    rfl

/-- Settles O19: none of the ten store ranges answers the address. -/
theorem storeUnmappedHaltsWithF2 : Obligations.StoreUnmappedHaltsWithF2 := by
  intro addr v s hs ha hram hirq hdma hgpu htimers hspu hcacheCtl hmemCtl hramSize hexp2
  refine exec_storeUnmapped hs ha ((lookup_eq_none_iff ..).2 fun t ht => (contains_maskRegion_eq_none_iff t addr).2 ?_)
  cases t with
  | ram => exact hram
  | irq => exact hirq
  | dma => exact hdma
  | gpu => exact hgpu
  | timers => exact htimers
  | spu => exact hspu
  | cacheCtl => exact hcacheCtl
  | memCtl => exact hmemCtl
  | ramSize => exact hramSize
  | exp2 => exact hexp2
  | bios | exp1 => exact absurd ht (by decide)

/-! ### The registers of a channel, for every port -/

theorem rdChannel_base (p : Port) (s : State) : rdChannel p .base s = rdBase p s := by cases p <;> rfl
theorem rdChannel_block (p : Port) (s : State) : rdChannel p .block s = rdBlock p s := by cases p <;> rfl
theorem rdChannel_chctl (p : Port) (s : State) : rdChannel p .chctl s = rdChctl p s := by cases p <;> rfl

theorem wrChannel_base (p : Port) (val : Word) (s : State) : wrChannel p .base val s = wrBase p val s := by
  cases p <;> rfl

theorem wrChannel_block (p : Port) (val : Word) (s : State) : wrChannel p .block val s = wrBlock p val s := by
  cases p <;> rfl

theorem wrChannel_chctl (p : Port) (val : Word) (s : State) : wrChannel p .chctl val s = wrChctl p val s := by
  cases p <;> rfl

/-! ### A word access of the DMA range -/

/-- The offset inside the DMA range an address names (R63, R180). -/
def dmaOffset (addr : Word) : BitVec 7 := (maskRegion addr - Target.dma.range.base).setWidth 7

/-- A word-aligned address names an aligned offset: the range's base and its length are multiples of 4 (R71, R110). -/
theorem dmaOffset_aligned {addr : Word} (ha : aligned .word addr = true) : alignedOffset (dmaOffset addr) = true := by
  have hmod := maskRegion_mod addr
  simp only [aligned, Width.bytes, beq_iff_eq] at ha
  have hbase : Target.dma.range.base.toNat = 0x1f801080 := rfl
  rw [alignedOffset, beq_iff_eq, dmaOffset, BitVec.toNat_setWidth, BitVec.toNat_sub, hbase]
  omega

/-- A register access starts with no reply, so it does not depend on the last one (log entry 3). -/
theorem dmaRead_word_begin (o : BitVec 7) (s : State) : dmaRead .word o s.begin = dmaRead .word o s := by
  simp only [dmaRead]
  cases regSel o with
  | channel p r =>
    cases r with
    | base => simp only [rdChannel_base]; rfl
    | block => simp only [rdChannel_block]; rfl
    | chctl => simp only [rdChannel_chctl]; rfl
  | dmaCtl | dmaIrq | reserved => rfl

theorem dmaWrite_word_begin (o : BitVec 7) (val : Word) (s : State) :
    dmaWrite o (.word val) s.begin = dmaWrite o (.word val) s := by
  simp only [dmaWrite]
  cases regSel o with
  | channel p r =>
    cases r with
    | base => simp only [wrChannel_base]; rfl
    | block => simp only [wrChannel_block]; rfl
    | chctl => simp only [wrChannel_chctl]; rfl
  | dmaCtl | dmaIrq | reserved => rfl

section
variable {T : Width} {addr : Word} {v : Value} {s : State} (hs : s.ready)
include hs

/-- An accepted aligned load in the DMA range is the read at its offset (R145). -/
theorem exec_loadDma (ha : aligned T addr = true) (hm : maskedIn 0x1f801080 128 addr) :
    exec (.loadDma T addr) s = dmaRead T (dmaOffset addr) s.begin :=
  busFront_of_maskedIn (t := .dma) hs ha hm

/-- An accepted aligned store in the DMA range is the write at its offset (R154). -/
theorem exec_storeDma (ha : aligned v.width addr = true) (hm : maskedIn 0x1f801080 128 addr) :
    exec (.storeDma addr v) s = dmaWrite (dmaOffset addr) v s.begin :=
  busFront_of_maskedIn (t := .dma) hs ha hm

/-- A word load in the DMA range is the register read the offset selects (R180). -/
theorem exec_loadDma_word (ha : aligned .word addr = true) (hm : maskedIn 0x1f801080 128 addr) :
    exec (.loadDma .word addr) s = exec (rdInstr (dmaOffset addr)) s := by
  rw [exec_loadDma hs ha hm, dmaRead_word_begin, exec_rdInstr]

/-- A word store in the DMA range is the register write the offset selects (R180). -/
theorem exec_storeDma_word (val : Word) (ha : aligned .word addr = true) (hm : maskedIn 0x1f801080 128 addr) :
    exec (.storeDma addr (.word val)) s = exec (wrInstr (dmaOffset addr) val) s := by
  rw [exec_storeDma (v := .word val) hs ha hm, dmaWrite_word_begin, exec_wrInstr]

end

/-! ### Register reads, and narrow accesses -/

/-- What a completed word read of the DMA range is: some word is handed back and nothing else changes. -/
def LoadsAWord (s : State) (o : Out) : Prop := ∃ w, o = .next { s with reply := some (.loaded (.word w)) }

theorem regFront_loadsAWord {f : State → Word} {s : State} (hs : s.ready) :
    LoadsAWord s (regFront s fun s => loads (.word (f s)) s) :=
  ⟨f s.begin, regFront_of_ready _ hs.not_busy⟩

theorem rdChannel_loadsAWord (p : Port) (r : ChannelReg) {s : State} (hs : s.ready) : LoadsAWord s (rdChannel p r s) := by
  cases r with
  | base => rw [rdChannel_base]; exact regFront_loadsAWord (f := fun s => (s.ch p).base) hs
  | block =>
    rw [rdChannel_block]
    exact regFront_loadsAWord (f := fun s => blockWord (s.ch p).blockSize (s.ch p).blockCount) hs
  | chctl => rw [rdChannel_chctl]; exact regFront_loadsAWord (f := fun s => (s.ch p).control) hs

/-- A read of any offset but the reserved ones completes (R182 to R186). -/
theorem rdInstr_loadsAWord {off : BitVec 7} (hr : regSel off ≠ .reserved) {s : State} (hs : s.ready) :
    LoadsAWord s (exec (rdInstr off) s) := by
  unfold rdInstr
  cases hsel : regSel off with
  | channel p r => rw [exec_rdChannelInstr]; exact rdChannel_loadsAWord p r hs
  | dmaCtl => exact regFront_loadsAWord (f := fun s => s.dma.control) hs
  | dmaIrq => exact regFront_loadsAWord (f := fun s => s.dma.interrupt) hs
  | reserved => exact absurd hsel hr

/-- The width is checked before the register, so a narrow store latches F4 at every offset (R180, R284; log entry 22). -/
theorem dmaWrite_of_narrow {v : Value} (hv : v.width ≠ .word) (o : BitVec 7) (s : State) :
    dmaWrite o v s = raise (.dmaAccessWidth .store o v.width) s := by
  cases v with
  | word w => exact absurd rfl hv
  | byte b | half h => rfl

/-- Settles O13. -/
theorem loadDmaRunsTheRegisterRead : Obligations.LoadDmaRunsTheRegisterRead := by
  refine ⟨fun T addr s hs ha hm => ⟨?_, fun hT => ?_⟩, fun addr v s hs ha hm hv => ?_⟩
  · rintro rfl
    refine ⟨exec_loadDma_word hs ha hm, fun hr => ?_⟩
    rw [exec_loadDma_word hs ha hm]
    exact rdInstr_loadsAWord hr hs
  · rw [exec_loadDma hs ha hm, dmaRead, if_pos hT]
    rfl
  · rw [exec_storeDma hs ha hm, dmaWrite_of_narrow hv]
    rfl

/-! ### The row of a register write -/

section
variable {off : BitVec 7} {val : Word}

theorem wrInstr_of_channel {p : Port} {r : ChannelReg} (h : regSel off = .channel p r) :
    wrInstr off val = wrChannelInstr val p r := by rw [wrInstr, h]

theorem wrInstr_of_dmaCtl (h : regSel off = .dmaCtl) : wrInstr off val = .wrDmactl val := by rw [wrInstr, h]

theorem wrInstr_of_dmaIrq (h : regSel off = .dmaIrq) : wrInstr off val = .wrDmairq val := by rw [wrInstr, h]

theorem wrInstr_of_reserved (h : regSel off = .reserved) : wrInstr off val = .wrReserved off val := by rw [wrInstr, h]

end

/-! ### Writes of the global registers -/

/-- A write of the control register stores all 32 bits and examines no channel (R193, R202). -/
theorem execWrDmactl_of_ready (val : Word) {s : State} (hs : s.ready) :
    execWrDmactl val s = .next { s with dma := { s.dma with control := val }, reply := some .stored } :=
  regFront_of_ready _ hs.not_busy

/-- A write of the interrupt register stores all 32 bits and examines no channel (R194, R202). -/
theorem execWrDmairq_of_ready (val : Word) {s : State} (hs : s.ready) :
    execWrDmairq val s = .next { s with dma := { s.dma with interrupt := val }, reply := some .stored } :=
  regFront_of_ready _ hs.not_busy

/-! ### A register write moves no word -/

/-- What a write of the DMA range answers: a next state, RAM and the trace as before, for no word has moved (R34; log entry 30). -/
def MovesNoWord (s : State) (o : Out) : Prop := ∃ t, o = .next t ∧ t.ram = s.ram ∧ t.gpuTrace = s.gpuTrace

theorem stores_movesNoWord (s : State) : MovesNoWord s (stores s) := ⟨_, rfl, rfl, rfl⟩

theorem raise_movesNoWord (c : Cause) (s : State) : MovesNoWord s (raise c s) := ⟨_, rfl, rfl, rfl⟩

theorem setEng_movesNoWord (s : State) (e : Engine) : MovesNoWord s (.next (s.setEng e)) := ⟨_, rfl, rfl, rfl⟩

theorem execEngBlockStart_movesNoWord (p : Port) {s : State} (hs : s.ready) :
    MovesNoWord s (execEngBlockStart p s) := by
  rw [execEngBlockStart, engFront_of_running _ hs.1, if_pos hs.2]
  cases transferSize (s.ch p) with
  | none => exact raise_movesNoWord _ s
  | some n => exact setEng_movesNoWord s _

theorem execEngListStart_movesNoWord (p : Port) {s : State} (hs : s.ready) :
    MovesNoWord s (execEngListStart p s) := by
  rw [execEngListStart, engFront_of_running _ hs.1, if_pos hs.2]
  split
  · exact raise_movesNoWord _ s
  · split
    · exact raise_movesNoWord _ s
    · exact setEng_movesNoWord s _

/-- After a channel write the store returns, or a transfer starts, and the start moves no word (R200, R201; log entry 17). -/
theorem afterChannelWrite_movesNoWord (p : Port) {s : State} (hs : s.ready) :
    MovesNoWord s (afterChannelWrite p s) := by
  unfold afterChannelWrite startTransfer
  split
  · split
    · exact execEngListStart_movesNoWord p hs
    · exact execEngBlockStart_movesNoWord p hs
  · exact stores_movesNoWord s

theorem wrChannel_movesNoWord (p : Port) (r : ChannelReg) (val : Word) {s : State} (hs : s.ready) :
    MovesNoWord s (wrChannel p r val s) := by
  cases r with
  | base =>
    rw [wrChannel_base, wrBase, regFront_of_ready _ hs.not_busy]
    exact afterChannelWrite_movesNoWord p (s := s.begin.setBase p val) hs
  | block =>
    rw [wrChannel_block, wrBlock, regFront_of_ready _ hs.not_busy]
    exact afterChannelWrite_movesNoWord p (s := s.begin.setBlock p val) hs
  | chctl =>
    rw [wrChannel_chctl, wrChctl, regFront_of_ready _ hs.not_busy]
    split
    · exact raise_movesNoWord _ s.begin
    · exact afterChannelWrite_movesNoWord p (s := s.begin.setControl p val) hs

/-- A register write at an aligned offset always answers, and moves no word (R180, R200). -/
theorem wrInstr_movesNoWord {off : BitVec 7} (ha : alignedOffset off = true) (val : Word) {s : State} (hs : s.ready) :
    MovesNoWord s (exec (wrInstr off val) s) := by
  cases hsel : regSel off with
  | channel p r =>
    rw [wrInstr_of_channel hsel, exec_wrChannelInstr]
    exact wrChannel_movesNoWord p r val hs
  | dmaCtl =>
    rw [wrInstr_of_dmaCtl hsel]
    exact ⟨_, execWrDmactl_of_ready val hs, rfl, rfl⟩
  | dmaIrq =>
    rw [wrInstr_of_dmaIrq hsel]
    exact ⟨_, execWrDmairq_of_ready val hs, rfl, rfl⟩
  | reserved =>
    rw [wrInstr_of_reserved hsel]
    exact ⟨_, reservedFront_of_ready _ hs.not_busy ha hsel, rfl, rfl⟩

/-! ### A register write that starts nothing -/

/-- What a write that starts nothing answers: it returns, having changed the DMA registers alone (R200). -/
def StoresInDma (s : State) (o : Out) : Prop := ∃ t, o = .next t ∧ t = { s with dma := t.dma, reply := some .stored }

theorem afterChannelWrite_of_not_active {p : Port} {s : State} (h : s.active p = false) :
    afterChannelWrite p s = stores s := by
  simp [afterChannelWrite, h]

@[simp] theorem State.setBase_active (s : State) (p : Port) (val : Word) : (s.setBase p val).active p = s.active p := by
  simp [State.active]

@[simp] theorem State.setBlock_active (s : State) (p : Port) (val : Word) : (s.setBlock p val).active p = s.active p := by
  simp [State.active]

@[simp] theorem State.setControl_active (s : State) (p : Port) (val : Word) :
    (s.setControl p val).active p = activeOf val := by
  simp [State.active]

/-- A channel write returns at once where the channel is not active after it: by the value written to the control register, by the
control word that stands when another register is written (R200). -/
theorem wrChannel_storesInDma {p : Port} {r : ChannelReg} {val : Word} {s : State} (hs : s.ready)
    (hval : r = .chctl → syncField val ≠ 3#2 ∧ activeOf val = false) (hp : r ≠ .chctl → s.active p = false) :
    StoresInDma s (wrChannel p r val s) := by
  cases r with
  | base =>
    have h : (s.begin.setBase p val).active p = false := by simpa using hp
    rw [wrChannel_base, wrBase, regFront_of_ready _ hs.not_busy, afterChannelWrite_of_not_active h]
    exact ⟨_, rfl, rfl⟩
  | block =>
    have h : (s.begin.setBlock p val).active p = false := by simpa using hp
    rw [wrChannel_block, wrBlock, regFront_of_ready _ hs.not_busy, afterChannelWrite_of_not_active h]
    exact ⟨_, rfl, rfl⟩
  | chctl =>
    obtain ⟨hsync, hact⟩ := hval rfl
    have h : (s.begin.setControl p val).active p = false := by simpa using hact
    rw [wrChannel_chctl, wrChctl, regFront_of_ready _ hs.not_busy, if_neg hsync, afterChannelWrite_of_not_active h]
    exact ⟨_, rfl, rfl⟩

/-- Settles O20. -/
theorem storeDmaRunsTheRegisterWrite : Obligations.StoreDmaRunsTheRegisterWrite := by
  intro addr val s hs ha hm
  have hrow := exec_storeDma_word hs val ha hm
  refine ⟨hrow, ?_, fun hsel => ?_⟩
  · rw [hrow]
    exact wrInstr_movesNoWord (dmaOffset_aligned ha) val hs
  · rw [hrow]
    obtain hsel | hsel | ⟨p, r, hsel, hval, hp⟩ := hsel
    · rw [wrInstr_of_dmaCtl (off := dmaOffset addr) hsel]
      exact ⟨_, execWrDmactl_of_ready val hs, rfl⟩
    · rw [wrInstr_of_dmaIrq (off := dmaOffset addr) hsel]
      exact ⟨_, execWrDmairq_of_ready val hs, rfl⟩
    · rw [wrInstr_of_channel (off := dmaOffset addr) hsel, exec_wrChannelInstr]
      exact wrChannel_storesInDma hs hval hp

end Sys2Proof.Machine

/-!
PROOF. The family 41_dma_registers.md: the register reads (R182 to R186), the writes of a ready block, of a channel left inactive
(R190 to R194, R203) and of one that becomes active (R200, R201), the fatal accesses (R187, R195, R196), and `done` (R204).
-/

namespace Sys2Proof.Machine

/-! ### Register reads -/

/-- A block-control read answers the count in the upper half and the size in the lower (R114; log entry 12). -/
theorem blockWord_eq_append (size count : Half) : blockWord size count = count ++ size := by
  refine Eq.symm ((BitVec.append_def count size).trans ?_)
  rw [BitVec.shiftLeftZeroExtend_eq, BitVec.setWidth'_eq]
  simp [blockWord]

section
variable (p : Port) {s : State} (hs : s.ready)
include hs

theorem rdBase_of_ready : rdBase p s = .next { s with reply := some (.loaded (.word (s.ch p).base)) } :=
  regFront_of_ready _ hs.not_busy

theorem rdBlock_of_ready :
    rdBlock p s = .next { s with reply := some (.loaded (.word ((s.ch p).blockCount ++ (s.ch p).blockSize))) } := by
  rw [← blockWord_eq_append]
  exact regFront_of_ready _ hs.not_busy

theorem rdChctl_of_ready : rdChctl p s = .next { s with reply := some (.loaded (.word (s.ch p).control)) } :=
  regFront_of_ready _ hs.not_busy

end

/-- Settles O21: each row is the read of its port's register. -/
theorem channelReadsReturnTheRegisters : Obligations.ChannelReadsReturnTheRegisters :=
  fun _ hs =>
    ⟨rdBase_of_ready .mdecIn hs, rdBlock_of_ready .mdecIn hs, rdChctl_of_ready .mdecIn hs,
      rdBase_of_ready .mdecOut hs, rdBlock_of_ready .mdecOut hs, rdChctl_of_ready .mdecOut hs,
      rdBase_of_ready .gpu hs, rdBlock_of_ready .gpu hs, rdChctl_of_ready .gpu hs,
      rdBase_of_ready .cdRom hs, rdBlock_of_ready .cdRom hs, rdChctl_of_ready .cdRom hs,
      rdBase_of_ready .spu hs, rdBlock_of_ready .spu hs, rdChctl_of_ready .spu hs,
      rdBase_of_ready .pio hs, rdBlock_of_ready .pio hs, rdChctl_of_ready .pio hs,
      rdBase_of_ready .otc hs, rdBlock_of_ready .otc hs, rdChctl_of_ready .otc hs⟩

/-- Settles O22. -/
theorem controllerRegistersAreStoredAndReturned : Obligations.ControllerRegistersAreStoredAndReturned :=
  fun val _ hs =>
    ⟨regFront_of_ready _ hs.not_busy, regFront_of_ready _ hs.not_busy, execWrDmactl_of_ready val hs,
      execWrDmairq_of_ready val hs⟩

/-! ### Writes that leave the channel inactive -/

section
variable (p : Port) (val : Word) {s : State} (hs : s.ready)
include hs

/-- A base write keeps the control word, so an inactive channel stays inactive and the store returns (R190, R200). -/
theorem wrBase_of_not_active (hp : s.active p = false) :
    wrBase p val s = .next { s.setBase p val with reply := some .stored } := by
  have hact : (s.begin.setBase p val).active p = false := by simpa using hp
  rw [wrBase, regFront_of_ready _ hs.not_busy, afterChannelWrite_of_not_active hact]
  rfl

theorem wrBlock_of_not_active (hp : s.active p = false) :
    wrBlock p val s = .next { s.setBlock p val with reply := some .stored } := by
  have hact : (s.begin.setBlock p val).active p = false := by simpa using hp
  rw [wrBlock, regFront_of_ready _ hs.not_busy, afterChannelWrite_of_not_active hact]
  rfl

/-- A control value decides by itself whether its channel is active: the old word has no part in it (R32, R200). -/
theorem wrChctl_of_not_active (hsync : syncField val ≠ 3#2) (hval : activeOf val = false) :
    wrChctl p val s = .next { s.setControl p val with reply := some .stored } := by
  have hact : (s.begin.setControl p val).active p = false := by simpa using hval
  rw [wrChctl, regFront_of_ready _ hs.not_busy, if_neg hsync, afterChannelWrite_of_not_active hact]
  rfl

end

/-- Settles O23. -/
theorem baseWritesStoreAllBits : Obligations.BaseWritesStoreAllBits :=
  fun val _ hs =>
    ⟨wrBase_of_not_active .mdecIn val hs, wrBase_of_not_active .mdecOut val hs, wrBase_of_not_active .gpu val hs,
      wrBase_of_not_active .cdRom val hs, wrBase_of_not_active .spu val hs, wrBase_of_not_active .pio val hs,
      wrBase_of_not_active .otc val hs⟩

/-- Settles O24. -/
theorem blockWritesStoreSizeAndCount : Obligations.BlockWritesStoreSizeAndCount :=
  fun val _ hs =>
    ⟨wrBlock_of_not_active .mdecIn val hs, wrBlock_of_not_active .mdecOut val hs, wrBlock_of_not_active .gpu val hs,
      wrBlock_of_not_active .cdRom val hs, wrBlock_of_not_active .spu val hs, wrBlock_of_not_active .pio val hs,
      wrBlock_of_not_active .otc val hs⟩

/-- Settles O25. -/
theorem controlWritesThatStartNothingStoreAllBits : Obligations.ControlWritesThatStartNothingStoreAllBits := by
  intro val s hs hsync hval
  have hwrite (p : Port) := wrChctl_of_not_active p val hs hsync hval
  exact ⟨hwrite .mdecIn, hwrite .mdecOut, hwrite .gpu, hwrite .cdRom, hwrite .spu, hwrite .pio, hwrite .otc⟩

/-! ### Fatal register accesses -/

/-- The control-write row of a port (R180, R192). -/
theorem exec_wrChctlInstr (p : Port) (val : Word) (s : State) :
    exec (wrChannelInstr val p .chctl) s = wrChctl p val s := by
  rw [exec_wrChannelInstr, wrChannel_chctl]

/-- Settles O28: the value is checked before it is stored. -/
theorem syncModeThreeIsFatal : Obligations.SyncModeThreeIsFatal := by
  intro p val s hs hsync
  rw [exec_wrChctlInstr, wrChctl, regFront_of_ready _ hs.not_busy, if_pos hsync]
  rfl

/-- The aligned offsets that select no register (R110, R187, R195). -/
theorem mem_reservedOffsets_iff (off : BitVec 7) :
    off ∈ [0x0c#7, 0x1c#7, 0x2c#7, 0x3c#7, 0x4c#7, 0x5c#7, 0x6c#7, 0x78#7, 0x7c#7] ↔
      alignedOffset off = true ∧ regSel off = .reserved := by
  revert off
  decide

/-- Settles O29. -/
theorem reservedOffsetsAreFatal : Obligations.ReservedOffsetsAreFatal := by
  refine ⟨mem_reservedOffsets_iff, fun off val s hs hoff => ?_⟩
  obtain ⟨ha, hr⟩ := (mem_reservedOffsets_iff off).1 hoff
  exact ⟨reservedFront_of_ready _ hs.not_busy ha hr, reservedFront_of_ready _ hs.not_busy ha hr⟩

/-! ### Writes that start a transfer -/

section
variable {p : Port} {val : Word} {s : State} (hs : s.ready)
include hs

/-- A transfer whose size is known starts in block mode: only linked-list mode and the reserved code have none (R33, R201, R221). -/
theorem startTransfer_of_size {n : Word} (hn : transferSize (s.ch p) = some n) :
    startTransfer p s = .next (s.setEng (.block p (s.ch p).base n)) := by
  have hlist : syncOf (s.ch p).control ≠ some .linkedList := fun h => by simp [transferSize, h] at hn
  rw [startTransfer, execEngBlockStart, engFront_of_running _ hs.1, if_pos hs.2, hn]
  split
  · exact absurd ‹_› hlist
  · rfl

/-- A ready block checks the port of a list, then its direction, and then sets the cursor (R251, R252, R253; log entry 22). -/
theorem execEngListStart_of_ready :
    execEngListStart p s =
      if p ≠ .gpu then raise (.dmaListPort p) s
      else if directionOf (s.ch p).control = .toRam then raise (.dmaListDirection p) s
      else .next (s.setEng (.listHeader (windowAddr (s.ch p).base))) := by
  rw [execEngListStart, engFront_of_running _ hs.1, if_pos hs.2]

/-- An activating control value is stored, and its transfer starts inside the write (R192, R200; log entry 17). -/
theorem wrChctl_of_active (hval : activeOf val = true) :
    wrChctl p val s = startTransfer p (s.begin.setControl p val) := by
  obtain ⟨-, hsync, -⟩ := (activeOf_eq_true_iff val).1 hval
  have hact : (s.begin.setControl p val).active p = true := by simpa using hval
  rw [wrChctl, regFront_of_ready _ hs.not_busy, if_neg hsync, afterChannelWrite, if_pos hact]

/-- Block mode starts at the unmasked base, with the size the channel has under the written value (R220, R221). -/
theorem wrChctl_starts_block (hval : activeOf val = true) {n : Word}
    (hn : transferSize { s.ch p with control := val } = some n) :
    wrChctl p val s = .next { s.setControl p val with eng := .block p (s.ch p).base n, reply := none } := by
  have hch : (s.begin.setControl p val).ch p = { s.ch p with control := val } := by simp
  rw [wrChctl_of_active hs hval, startTransfer_of_size (s := s.begin.setControl p val) hs (hch ▸ hn), hch]
  rfl

/-- Linked-list mode starts by the written value's direction, from the base as it stands (R250 to R253). -/
theorem wrChctl_starts_list (hval : activeOf val = true) (hsync : syncOf val = some .linkedList) :
    wrChctl p val s =
      if p ≠ .gpu then raise (.dmaListPort p) (s.begin.setControl p val)
      else if directionOf val = .toRam then raise (.dmaListDirection p) (s.begin.setControl p val)
      else .next ((s.begin.setControl p val).setEng (.listHeader (windowAddr (s.ch p).base))) := by
  have hch : (s.begin.setControl p val).ch p = { s.ch p with control := val } := by simp
  rw [wrChctl_of_active hs hval, startTransfer, hch, hsync]
  exact (execEngListStart_of_ready (s := s.begin.setControl p val) hs).trans (by rw [hch])

end

/-- Settles O26: the size under the written value is that of its mode (R33). -/
theorem controlWritesStartBlockTransfers : Obligations.ControlWritesStartBlockTransfers := by
  intro p val s hs hval
  rw [exec_wrChctlInstr]
  obtain ⟨hmanual, hrequest, -⟩ := transferSizeIsSizeOrProduct { s.ch p with control := val }
  refine ⟨fun hsync => wrChctl_starts_block hs hval (hmanual hsync), fun hsync => ?_⟩
  obtain ⟨n, hn, hprod⟩ := hrequest hsync
  rw [wrChctl_starts_block hs hval hn, ← hprod, BitVec.ofNat_toNat, BitVec.setWidth_eq]

/-- Settles O27: the three clauses are the three branches of the start. -/
theorem controlWritesStartListTransfers : Obligations.ControlWritesStartListTransfers := by
  intro p val s hs hval hsync
  rw [exec_wrChctlInstr, wrChctl_starts_list hs hval hsync]
  refine ⟨fun hp hd => ?_, fun hp hd => ?_, fun hp => ?_⟩
  · rw [if_neg (not_not.2 hp), if_neg (by simp [hd])]
    rfl
  · rw [if_neg (not_not.2 hp), if_pos hd]
    rfl
  · rw [if_pos hp]
    rfl

/-! ### The end of a transfer -/

/-- `done` bit by bit (R204; log entry 16). -/
theorem doneControl_getLsbD (ctl : Word) (i : Nat) :
    (doneControl ctl).getLsbD i =
      (ctl.getLsbD i && (i != Config.chcrEnableBit) && (i != Config.chcrTriggerBit)) := by
  have hmask : doneControl ctl =
      ctl &&& ~~~(BitVec.twoPow 32 Config.chcrEnableBit ||| BitVec.twoPow 32 Config.chcrTriggerBit) := rfl
  by_cases hi : i < 32
  · simp [hmask, hi, bne, beq_eq_decide, Bool.and_assoc]
  · simp [BitVec.getLsbD_of_ge _ i (Nat.le_of_not_lt hi)]

/-- Settles O32. -/
theorem doneClearsExactlyEnableAndTrigger : Obligations.DoneClearsExactlyEnableAndTrigger := by
  intro p s
  have hch (q : Port) : (((s.setControl p (doneControl (s.ch p).control)).setEng .idle).returned .stored).ch q =
      if q = p then { s.ch p with control := doneControl (s.ch p).control } else s.ch q := by simp
  refine ⟨_, rfl, rfl, ?_, fun i => ?_, ?_, fun q hq => ?_, rfl⟩
  · rw [State.active, hch, if_pos rfl, activeOf_doneControl]
  · rw [hch, if_pos rfl, doneControl_getLsbD]
  · rw [hch, if_pos rfl]
  · rw [hch, if_neg hq]

end Sys2Proof.Machine

/-!
PROOF. The family 42_dma_block_transfer.md: each row of the engine in block mode (R221 to R230), the loop its steps make (R231,
R234), the closed forms of an ordering-table clear and of a transfer to the video port (R236, R237), and that a size is always
known where a transfer starts (R233).
-/

namespace Sys2Proof.Machine

/-! ### The running address -/

/-- The running address of a block transfer after `k` words from address `b` (R222, R229; log entry 32). -/
def blockAddr (d : StepDir) (b : Word) (k : Nat) : Word :=
  match d with
  | .increment => b + BitVec.ofNat 32 (4 * k)
  | .decrement => b - BitVec.ofNat 32 (4 * k)

@[simp] theorem blockAddr_zero (d : StepDir) (b : Word) : blockAddr d b 0 = b := by
  cases d <;> simp [blockAddr]

/-- The step value is the distance of one word. -/
theorem add_stepValue (ctl addr : Word) : addr + stepValue ctl = blockAddr (stepOf ctl) addr 1 := by
  unfold stepValue blockAddr
  cases stepOf ctl with
  | increment => rfl
  | decrement => bv_omega

/-- One word and then `k` words are `k + 1` words. -/
theorem blockAddr_blockAddr_one (d : StepDir) (b : Word) (k : Nat) :
    blockAddr d (blockAddr d b 1) k = blockAddr d b (k + 1) := by
  cases d with
  | increment => simp only [blockAddr]; bv_omega
  | decrement => simp only [blockAddr]; bv_omega

/-! ### One row at a time -/

/-- The row the engine state selects is the step. -/
theorem step_of_runs {s t : State} {i : Instr} (hh : s.halt = none)
    (hr : selectEngine s = some i ∧ exec i s = .next t) : step s = .next t :=
  (step_of_selectEngine hh hr.1).trans hr.2

/-- Settles O34. -/
theorem blockGpuWordForwardsOneWord : Obligations.BlockGpuWordForwardsOneWord := by
  intro addr n s hh he hn hd
  rw [(engBlockGpuWord_runs hh he hn hd).2, add_stepValue]
  rfl

/-- Settles O35: the written word reads back, and a write changes no byte outside it. -/
theorem blockOtcWordWritesOneTableEntry : Obligations.BlockOtcWordWritesOneTableEntry := by
  intro addr n s hh he hn hd
  refine ⟨_, (engBlockOtcWord_runs hh he hn hd).2, ?_, ?_, fun y hy => ?_⟩
  · rw [add_stepValue]
    rfl
  · exact s.ramWrite_ramWord (windowAddr addr) (otcWord addr n)
  · exact s.ramWrite_ramByte_of_outside (windowAddr addr) (.word (otcWord addr n)) y hy

/-- Settles O36: with a count of zero the engine selects the completion. -/
theorem unimplementedBlockPortsAreFatal : Obligations.UnimplementedBlockPortsAreFatal := by
  refine fun p addr n s hh he => ⟨fun hn hd hp => ?_, fun hn hd hp => ?_, fun hn => ?_⟩
  · obtain ⟨hsel, hx⟩ := engBlockFromRamFatal_runs hh he hn hd hp
    exact ⟨hx, step_of_selectEngine hh hsel⟩
  · obtain ⟨hsel, hx⟩ := engBlockToRamFatal_runs hh he hn hd hp
    exact ⟨hx, step_of_selectEngine hh hsel⟩
  · subst hn
    exact ⟨_, step_of_runs hh (engBlockDone_runs hh he), hh⟩

/-- Settles O37. -/
theorem blockDoneMarksTheChannelDone : Obligations.BlockDoneMarksTheChannelDone :=
  fun _ _ _ hh he =>
    ⟨(engBlockDone_runs hh he).2, enableOf_doneControl _, triggerOf_doneControl _, activeOf_doneControl _⟩

/-- A ready block starts block mode at the unmasked base, or latches F11 where the channel has no size (R220, R221, R233). -/
theorem execEngBlockStart_of_ready {s : State} (p : Port) (hs : s.ready) :
    execEngBlockStart p s =
      (transferSize (s.ch p)).elim (raise (.dmaSizeIndeterminate p) s)
        fun n => .next (s.setEng (.block p (s.ch p).base n)) := by
  rw [execEngBlockStart, engFront_of_running _ hs.1, if_pos hs.2]
  cases transferSize (s.ch p) <;> rfl

/-- Settles O33. -/
theorem engineStartsLoadTheEngineState : Obligations.EngineStartsLoadTheEngineState := by
  intro p s hs
  have hblock := execEngBlockStart_of_ready p hs
  have hlist : exec (.engListStart p) s = _ := execEngListStart_of_ready hs
  refine ⟨fun n hn => ?_, fun hn => ?_, fun hp hd => ?_, fun hp hd => ?_, fun hp => ?_⟩
  · rw [hn] at hblock
    exact hblock
  · rw [hn] at hblock
    exact hblock
  · rw [hlist, if_neg (not_not.2 hp), if_neg (by simp [hd])]
    rfl
  · rw [hlist, if_neg (not_not.2 hp), if_pos hd]
    rfl
  · rw [hlist, if_pos hp]
    rfl

/-! ### Runs -/

theorem run_succ_of_step {s t : State} (h : step s = .next t) (k : Nat) : run (k + 1) s = run k t := by
  rw [run, h]

@[simp] theorem run_one (s : State) : run 1 s = step s := by
  simp only [run]
  cases step s <;> rfl

/-- A run goes on from where a shorter one ends. -/
theorem run_add_of_run {j : Nat} {s t : State} (h : run j s = .next t) (k : Nat) : run (j + k) s = run k t := by
  induction j generalizing s with
  | zero =>
    obtain rfl := Host.Outcome.next.inj h
    rw [Nat.zero_add]
  | succ j ih =>
    rw [Nat.succ_add]
    cases hst : step s with
    | next u =>
      rw [run_succ_of_step hst] at h ⊢
      exact ih h
    | fault f => simp [run, hst] at h
    | refused r => simp [run, hst] at h

/-- The engine set to what it is. -/
theorem State.setEng_of_eng {s : State} {e : Engine} (h : s.eng = e) : s.setEng e = s := by
  subst h
  rfl

/-! ### One word of an implemented transfer -/

/-- The pairs of direction and port that block mode implements (R224, R226). -/
def BlockImplemented (s : State) (p : Port) : Prop :=
  (directionOf (s.ch p).control = .fromRam ∧ p = .gpu) ∨ (directionOf (s.ch p).control = .toRam ∧ p = .otc)

/-- One word moved between RAM and an implemented port, by the channel's direction (R224, R226). -/
def State.moveWord (s : State) (p : Port) (addr n : Word) : State :=
  match directionOf (s.ch p).control with
  | .fromRam => s.emit (.gp0 (s.ramWord (windowAddr addr)))
  | .toRam => s.ramWrite (windowAddr addr) (.word (otcWord addr n))

section
variable (s : State) (p : Port) (addr n : Word)

theorem State.moveWord_of_fromRam (hd : directionOf (s.ch p).control = .fromRam) :
    s.moveWord p addr n = s.emit (.gp0 (s.ramWord (windowAddr addr))) := by rw [State.moveWord, hd]

theorem State.moveWord_of_toRam (hd : directionOf (s.ch p).control = .toRam) :
    s.moveWord p addr n = s.ramWrite (windowAddr addr) (.word (otcWord addr n)) := by rw [State.moveWord, hd]

@[simp] theorem State.moveWord_ch (q : Port) : (s.moveWord p addr n).ch q = s.ch q := by
  unfold State.moveWord
  split <;> rfl

@[simp] theorem State.moveWord_halt : (s.moveWord p addr n).halt = s.halt := by
  unfold State.moveWord
  split <;> rfl

/-- Moving a word does not look at the engine. -/
theorem State.setEng_moveWord_setEng (e f : Engine) :
    ((s.setEng e).moveWord p addr n).setEng f = (s.moveWord p addr n).setEng f := by
  cases hd : directionOf (s.ch p).control with
  | fromRam => rw [s.moveWord_of_fromRam p addr n hd, (s.setEng e).moveWord_of_fromRam p addr n hd]; rfl
  | toRam => rw [s.moveWord_of_toRam p addr n hd, (s.setEng e).moveWord_of_toRam p addr n hd]; rfl

end

/-- With words remaining, the step of an implemented transfer moves one, and steps the address and the count (R229). -/
theorem step_moveWord {s : State} {p : Port} {addr n : Word} (hh : s.halt = none) (he : s.eng = .block p addr n)
    (hn : n ≠ 0#32) (hi : BlockImplemented s p) :
    step s = .next ((s.moveWord p addr n).setEng (.block p (addr + stepValue (s.ch p).control) (n - 1#32))) := by
  obtain ⟨hd, rfl⟩ | ⟨hd, rfl⟩ := hi
  · rw [s.moveWord_of_fromRam _ _ _ hd]
    exact step_of_runs hh (engBlockGpuWord_runs hh he hn hd)
  · rw [s.moveWord_of_toRam _ _ _ hd]
    exact step_of_runs hh (engBlockOtcWord_runs hh he hn hd)

/-! ### The steps are the loop of R231 -/

/-- A count that fits a word is 1 only as the number 1. -/
theorem otcWord_ofNat_succ (addr : Word) {k : Nat} (hk : k + 1 < 2 ^ 32) :
    otcWord addr (BitVec.ofNat 32 (k + 1)) =
      if k = 0 then Config.otcEndMarker else (addr - 4#32) &&& Config.otcPtrMask := by
  have hone : BitVec.ofNat 32 (k + 1) = 1#32 ↔ k = 0 := by
    rw [← BitVec.toNat_inj, BitVec.toNat_ofNat, Nat.mod_eq_of_lt hk]
    simp
  simp only [otcWord, hone]

/-- The loop of an implemented transfer moves one word and goes on (R231). -/
theorem blockLoop_succ {s : State} {p : Port} (hi : BlockImplemented s p) (addr : Word) {k : Nat}
    (hk : k + 1 < 2 ^ 32) :
    blockLoop p (k + 1) addr s =
      blockLoop p k (addr + stepValue (s.ch p).control) (s.moveWord p addr (BitVec.ofNat 32 (k + 1))) := by
  obtain ⟨hd, rfl⟩ | ⟨hd, rfl⟩ := hi
  · rw [s.moveWord_of_fromRam _ _ _ hd]
    simp only [blockLoop, hd, if_true]
  · rw [s.moveWord_of_toRam _ _ _ hd, otcWord_ofNat_succ addr hk]
    simp only [blockLoop, hd, if_true]

theorem BlockImplemented.moveWord {s : State} {p : Port} (hi : BlockImplemented s p) (addr n : Word) :
    BlockImplemented (s.moveWord p addr n) p := by
  unfold BlockImplemented
  rwa [State.moveWord_ch]

/-- With no word remaining the step is the completion, whatever the port (R230, R232). -/
theorem step_setEng_zero {s : State} (hh : s.halt = none) (p : Port) (addr : Word) :
    step (s.setEng (.block p addr 0#32)) = done p s :=
  step_of_runs hh (engBlockDone_runs hh rfl)

/-- `k + 1` steps of an implemented transfer of `k` words are the loop for `k` words (R231, R234; log entry 30). -/
theorem run_eq_blockLoop {s : State} {p : Port} (hh : s.halt = none) (hi : BlockImplemented s p) (addr : Word) {k : Nat}
    (hk : k < 2 ^ 32) : run (k + 1) (s.setEng (.block p addr (BitVec.ofNat 32 k))) = blockLoop p k addr s := by
  induction k generalizing s addr with
  | zero => rw [run_one, step_setEng_zero hh, blockLoop]
  | succ k ih =>
    have hne : BitVec.ofNat 32 (k + 1) ≠ 0#32 := by
      rw [Ne, ← BitVec.toNat_inj, BitVec.toNat_ofNat, Nat.mod_eq_of_lt hk]
      simp
    have hpred : BitVec.ofNat 32 (k + 1) - 1#32 = BitVec.ofNat 32 k := by bv_omega
    have hstep := step_moveWord (s := s.setEng (.block p addr (BitVec.ofNat 32 (k + 1)))) hh rfl hne hi
    rw [State.setEng_moveWord_setEng, State.setEng_ch, hpred] at hstep
    rw [run_succ_of_step hstep, blockLoop_succ hi addr hk]
    exact ih (by simpa using hh) (hi.moveWord addr _) _ (by omega)

/-- `n + 1` steps from the start of an implemented transfer of `n` words are the loop for `n` words. -/
theorem run_setEng_eq_blockLoop {s : State} {p : Port} (hh : s.halt = none) (hi : BlockImplemented s p) (addr n : Word) :
    run (n.toNat + 1) (s.setEng (.block p addr n)) = blockLoop p n.toNat addr s := by
  have hrun := run_eq_blockLoop hh hi addr n.isLt
  rwa [BitVec.ofNat_toNat, BitVec.setWidth_eq] at hrun

theorem run_of_block {s : State} {p : Port} {addr n : Word} (hh : s.halt = none) (he : s.eng = .block p addr n)
    (hi : BlockImplemented s p) : run (n.toNat + 1) s = blockLoop p n.toNat addr s := by
  have hrun := run_setEng_eq_blockLoop hh hi addr n
  rwa [State.setEng_of_eng he] at hrun

/-- A transfer of a channel with size `n` is the loop for `n` words from the base (R231). -/
theorem doBlock_of_size {s : State} {p : Port} {n : Word} (hn : transferSize (s.ch p) = some n) :
    doBlock p s = blockLoop p n.toNat (s.ch p).base s := by
  rw [doBlock, hn]

/-- With words to move from RAM to a port other than the video port the loop raises F7 at once (R225). -/
theorem blockLoop_fromRam_raises {s : State} {p : Port} {k : Nat} (hk : k ≠ 0) (addr : Word)
    (hd : directionOf (s.ch p).control = .fromRam) (hp : p ≠ .gpu) :
    blockLoop p k addr s = raise (.dmaBlockDestPort p) s := by
  obtain ⟨k, rfl⟩ := Nat.exists_eq_add_one_of_ne_zero hk
  rw [blockLoop, hd]
  exact if_neg hp

/-- With words to move to RAM from a port other than OTC the loop raises F8 at once (R227). -/
theorem blockLoop_toRam_raises {s : State} {p : Port} {k : Nat} (hk : k ≠ 0) (addr : Word)
    (hd : directionOf (s.ch p).control = .toRam) (hp : p ≠ .otc) :
    blockLoop p k addr s = raise (.dmaBlockSourcePort p) s := by
  obtain ⟨k, rfl⟩ := Nat.exists_eq_add_one_of_ne_zero hk
  rw [blockLoop, hd]
  exact if_neg hp

/-- Settles O55. -/
theorem blockStepsEqualTheLoop : Obligations.BlockStepsEqualTheLoop := by
  intro p n s hs hn
  have hne (h : n ≠ 0#32) : n.toNat ≠ 0 := fun h0 => h (BitVec.eq_of_toNat_eq h0)
  rw [doBlock_of_size hn]
  refine ⟨fun hi => ?_, fun h0 hd hp => ⟨blockLoop_fromRam_raises (hne h0) _ hd hp, ?_⟩,
    fun h0 hd hp => ⟨blockLoop_toRam_raises (hne h0) _ hd hp, ?_⟩⟩
  · obtain rfl | hi := hi
    · exact (run_one _).trans (step_setEng_zero hs.1 p _)
    · exact run_setEng_eq_blockLoop hs.1 hi _ n
  · exact (run_one _).trans (step_of_runs hs.1 (engBlockFromRamFatal_runs hs.1 rfl h0 hd hp))
  · exact (run_one _).trans (step_of_runs hs.1 (engBlockToRamFatal_runs hs.1 rfl h0 hd hp))

/-! ### How long a block transfer takes -/

/-- After `k` of its `n` words an implemented transfer is at `n - k` and the block has not halted (R234). -/
theorem run_block_words {p : Port} {k : Nat} {addr n : Word} {s : State} (hh : s.halt = none)
    (he : s.eng = .block p addr n) (hi : BlockImplemented s p) (hk : k ≤ n.toNat) :
    ∃ t a, run k s = .next t ∧ t.halt = none ∧ t.eng = .block p a (n - BitVec.ofNat 32 k) := by
  induction k generalizing addr n s with
  | zero => exact ⟨s, addr, rfl, hh, by rw [he, BitVec.sub_zero]⟩
  | succ k ih =>
    have hn : n ≠ 0#32 := by rintro rfl; simp at hk
    have hpred : n - BitVec.ofNat 32 (k + 1) = n - 1#32 - BitVec.ofNat 32 k := by bv_omega
    rw [run_succ_of_step (step_moveWord hh he hn hi), hpred]
    exact ih (by simpa using hh) rfl (hi.moveWord addr n) (by bv_omega)

/-- With no word remaining one step makes the block ready (R230, R232). -/
theorem step_block_zero_ready {s : State} {p : Port} {addr : Word} (hh : s.halt = none) (he : s.eng = .block p addr 0#32) :
    ∃ t, step s = .next t ∧ t.ready :=
  ⟨_, step_of_runs hh (engBlockDone_runs hh he), hh, rfl⟩

/-- The sizes of the two block modes (R33, R234). -/
theorem transferSize_bounds {c : Channel} {n : Word} (hn : transferSize c = some n) :
    (syncOf c.control = some .manual → n.toNat ≤ 0xffff) ∧ n.toNat ≤ 0xfffe0001 := by
  obtain ⟨hmanual, hrequest, hlist⟩ := transferSizeIsSizeOrProduct c
  have hsize := c.blockSize.isLt
  have hman (hm : syncOf c.control = some .manual) : n.toNat ≤ 0xffff := by
    obtain rfl := Option.some.inj (hn.symm.trans (hmanual hm))
    rw [BitVec.toNat_setWidth_of_le (by decide)]
    omega
  refine ⟨hman, ?_⟩
  cases hm : syncOf c.control with
  | none => simp [transferSize, hm] at hn
  | some m =>
    cases m with
    | manual => exact (hman hm).trans (by decide)
    | request =>
      obtain ⟨n', hn', hprod⟩ := hrequest hm
      obtain rfl := Option.some.inj (hn.symm.trans hn')
      rw [hprod]
      exact Nat.mul_le_mul (n₂ := 0xffff) (m₂ := 0xffff) (by omega) (by have := c.blockCount.isLt; omega)
    | linkedList => simp [hlist hm] at hn

/-- Settles O56. -/
theorem blockTransfersTerminate : Obligations.BlockTransfersTerminate := by
  refine ⟨fun p addr n s hh he hi => ⟨fun k hk => run_block_words hh he hi hk, ?_⟩,
    fun p addr n s hh he hn => ⟨fun hd hp => ?_, fun hd hp => ?_⟩, fun p addr s hh he => ?_,
    fun c n => transferSize_bounds⟩
  · obtain ⟨t, a, hrun, ht, hte⟩ := run_block_words hh he hi (Nat.le_refl _)
    rw [run_add_of_run hrun, run_one]
    exact step_block_zero_ready ht (by simpa using hte)
  · exact (run_one s).trans (step_of_runs hh (engBlockFromRamFatal_runs hh he hn hd hp))
  · exact (run_one s).trans (step_of_runs hh (engBlockToRamFatal_runs hh he hn hd hp))
  · rw [run_one]
    exact step_block_zero_ready hh he

/-! ### A transfer to the video port -/

/-- The events of `k` words sent to the video port from address `b` (R224, R237). -/
def videoWords (s : State) (d : StepDir) (b : Word) (k : Nat) : List GpuEvent :=
  (List.range k).map fun j => .gp0 (s.ramWord (windowAddr (blockAddr d b j)))

theorem videoWords_succ (s : State) (d : StepDir) (b : Word) (k : Nat) :
    videoWords s d b (k + 1) = .gp0 (s.ramWord (windowAddr b)) :: videoWords s d (blockAddr d b 1) k := by
  simp [videoWords, List.range_succ_eq_map, blockAddr_blockAddr_one]

/-- The loop forwards its words in order: sending one changes no word of RAM that follows (R237). -/
theorem blockLoop_gpu {s : State} (hd : directionOf (s.ch .gpu).control = .fromRam) (b : Word) (k : Nat) :
    blockLoop .gpu k b s =
      done .gpu { s with gpuTrace := s.gpuTrace ++ videoWords s (stepOf (s.ch .gpu).control) b k } := by
  induction k generalizing s b with
  | zero => simp [blockLoop, videoWords]
  | succ k ih =>
    rw [blockLoop, hd, videoWords_succ, add_stepValue, List.append_cons]
    exact (if_pos rfl).trans (ih (s := s.emit (.gp0 (s.ramWord (windowAddr b)))) hd _)

/-- Settles O58. -/
theorem videoBlockTransferForwardsInOrder : Obligations.VideoBlockTransferForwardsInOrder := by
  intro b n s hh he hd
  rw [run_of_block hh he (.inl ⟨hd, rfl⟩), blockLoop_gpu hd]
  rfl

/-! ### An ordering-table clear -/

/-- Bits 20 to 2 of an address survive the engine's mask (R72). -/
theorem extractLsb'_windowAddr (addr : Word) : (windowAddr addr).extractLsb' 2 19 = addr.extractLsb' 2 19 := by
  rw [windowAddr, BitVec.extractLsb'_and]
  exact BitVec.and_allOnes

/-- Two entries of a table of at most `0x80000` words share no byte: their addresses differ in bits 20 to 2. -/
theorem windowAddr_apart (b : Word) {j : Nat} (hj : j + 1 < 0x80000) :
    (windowAddr (blockAddr .decrement b (j + 1))).toNat + 4 ≤ (windowAddr b).toNat ∨
      (windowAddr b).toNat + 4 ≤ (windowAddr (blockAddr .decrement b (j + 1))).toNat := by
  obtain ⟨hmod, -⟩ := windowAddr_bounds b
  obtain ⟨hmod', -⟩ := windowAddr_bounds (blockAddr .decrement b (j + 1))
  have hne : (windowAddr (blockAddr .decrement b (j + 1))).toNat ≠ (windowAddr b).toNat := by
    intro h
    have hbits := congrArg (BitVec.extractLsb' 2 19) (BitVec.eq_of_toNat_eq h)
    rw [extractLsb'_windowAddr, extractLsb'_windowAddr, ← BitVec.toNat_inj] at hbits
    simp only [BitVec.extractLsb'_toNat, Nat.shiftRight_eq_div_pow, blockAddr, BitVec.toNat_sub, BitVec.toNat_ofNat]
      at hbits
    omega
  omega

/-- A word whose four bytes are the same reads the same. -/
theorem State.ramWord_congr {s t : State} {x : Word} (h : ∀ i < 4, t.ramByte (x.toNat + i) = s.ramByte (x.toNat + i)) :
    t.ramWord x = s.ramWord x := by
  have h0 := h 0 (by decide)
  rw [Nat.add_zero] at h0
  simp only [State.ramWord, State.ramRead, memRead, h0, h 1 (by decide), h 2 (by decide), h 3 (by decide)]

/-- From `s` to `t` a table of `k` entries was written downwards from `b`: each entry points to the next, the last is the end
marker, and no other byte of RAM changed (R235, R236). -/
structure TableCleared (s t : State) (b : Word) (k : Nat) : Prop where
  entry : ∀ j < k, t.ramWord (windowAddr (blockAddr .decrement b j)) =
    if j + 1 = k then Config.otcEndMarker else (blockAddr .decrement b j - 4#32) &&& Config.otcPtrMask
  frame : ∀ y, (∀ j < k, y < (windowAddr (blockAddr .decrement b j)).toNat ∨
    (windowAddr (blockAddr .decrement b j)).toNat + 4 ≤ y) → t.ramByte y = s.ramByte y

/-- An entry written, and the rest of the table below it: the rest does not write over the entry. -/
theorem TableCleared.succ {s t : State} {b : Word} {k : Nat} (hk : k + 1 ≤ 0x80000)
    (h : TableCleared (s.ramWrite (windowAddr b) (.word (otcWord b (BitVec.ofNat 32 (k + 1))))) t
      (blockAddr .decrement b 1) k) : TableCleared s t b (k + 1) := by
  obtain ⟨hentry, hframe⟩ := h
  simp only [blockAddr_blockAddr_one] at hentry hframe
  refine ⟨fun j hj => ?_, fun y hy => ?_⟩
  · cases j with
    | zero =>
      have hkeep := State.ramWord_congr (x := windowAddr b) fun i hi => hframe _ fun j hj => by
        have := windowAddr_apart b (j := j) (by omega)
        omega
      rw [blockAddr_zero, hkeep, State.ramWrite_ramWord, otcWord_ofNat_succ b (by omega)]
      simp
    | succ j =>
      rw [hentry j (by omega)]
      simp
  · have hb := hy 0 (by omega)
    rw [blockAddr_zero] at hb
    rw [hframe y fun j hj => hy (j + 1) (by omega)]
    exact s.ramWrite_ramByte_of_outside _ _ y hb

/-- The loop of a decrementing clear writes the table, and changes nothing but RAM (R226, R235). -/
theorem blockLoop_otc {s : State} (hd : directionOf (s.ch .otc).control = .toRam)
    (hs : stepOf (s.ch .otc).control = .decrement) (b : Word) {k : Nat} (hk : k ≤ 0x80000) :
    ∃ t, blockLoop .otc k b s = done .otc t ∧ t = { s with ram := t.ram } ∧ TableCleared s t b k := by
  induction k generalizing s b with
  | zero => exact ⟨s, rfl, rfl, fun j hj => absurd hj (by omega), fun _ _ => rfl⟩
  | succ k ih =>
    have hi : BlockImplemented s .otc := .inr ⟨hd, rfl⟩
    rw [blockLoop_succ hi b (by omega), s.moveWord_of_toRam _ _ _ hd, add_stepValue, hs]
    obtain ⟨t, hloop, hrest, htable⟩ :=
      ih (s := s.ramWrite (windowAddr b) (.word (otcWord b (BitVec.ofNat 32 (k + 1))))) hd hs
        (blockAddr .decrement b 1) (by omega)
    exact ⟨t, hloop, hrest, htable.succ hk⟩

/-- Settles O57. -/
theorem orderingTableClearInClosedForm : Obligations.OrderingTableClearInClosedForm := by
  intro b n s hh he hd hs _ _ hn
  rw [run_of_block hh he (.inr ⟨hd, rfl⟩)]
  obtain ⟨t, hloop, hrest, hentry, hframe⟩ := blockLoop_otc hd hs b hn
  rw [hloop]
  refine ⟨_, rfl, ⟨?_, rfl⟩, ?_, hentry, hframe⟩
  · rw [hrest]; exact hh
  · rw [hrest]; rfl

/-! ### A size is known wherever a transfer starts -/

/-- An outcome that does not raise F11: no next state it answers has that cause latched (R233). -/
def SizeKnown (o : Out) : Prop := ∀ (t : State) (p : Port), o = .next t → t.halt ≠ some (.dmaSizeIndeterminate p)

/-- The answer is a next state whose latch is clear. -/
theorem sizeKnown_next {t : State} (ht : t.halt = none) : SizeKnown (.next t) := by
  rintro u p hu
  obtain rfl := Host.Outcome.next.inj hu
  simp [ht]

/-- A cause other than F11. -/
theorem sizeKnown_raise {c : Cause} (s : State) (hc : ∀ p, c ≠ .dmaSizeIndeterminate p) : SizeKnown (raise c s) := by
  rintro u p hu
  obtain rfl := (raise_next_iff c s u).1 hu
  exact fun h => hc p (Option.some.inj h)

/-! A front raises nothing of its own, and what follows it runs in a state that is not halted. -/

theorem busFront_sizeKnown {T : Width} {addr : Word} {tg : Target} {s : State} {k : Word → State → Out}
    (hk : ∀ o, s.ready → SizeKnown (k o s.begin)) : SizeKnown (busFront T addr tg s k) := by
  intro t p h
  obtain ⟨hs, -, o, -, h⟩ := (busFront_next_iff ..).1 h
  exact hk o (State.ready_of_not_busy hs) t p h

theorem regFront_sizeKnown {s : State} {k : State → Out} (hk : s.ready → SizeKnown (k s.begin)) :
    SizeKnown (regFront s k) := by
  intro t p h
  obtain ⟨hs, h⟩ := (regFront_next_iff ..).1 h
  exact hk (State.ready_of_not_busy hs) t p h

theorem unmappedFront_sizeKnown {T : Width} {addr : Word} {tg : Option Target} {c : Cause} {s : State}
    (hc : ∀ p, c ≠ .dmaSizeIndeterminate p) : SizeKnown (unmappedFront T addr tg s fun s => raise c s) := by
  intro t p h
  obtain ⟨-, -, -, h⟩ := (unmappedFront_next_iff ..).1 h
  exact sizeKnown_raise s.begin hc t p h

theorem reservedFront_sizeKnown {off : BitVec 7} {c : Cause} {s : State} (hc : ∀ p, c ≠ .dmaSizeIndeterminate p) :
    SizeKnown (reservedFront off s fun s => raise c s) := by
  intro t p h
  obtain ⟨-, -, -, h⟩ := (reservedFront_next_iff ..).1 h
  exact sizeKnown_raise s.begin hc t p h

/-- An active channel in a block mode has a size, so no start raises F11: an inactive channel starts nothing, and linked-list mode
does not ask for the size (R201, R220, R233; log entry 14). -/
theorem afterChannelWrite_sizeKnown {s : State} (p : Port) (hs : s.ready) : SizeKnown (afterChannelWrite p s) := by
  unfold afterChannelWrite
  split
  · rename_i hact
    obtain ⟨-, hsync, -⟩ := (activeOf_eq_true_iff _).1 hact
    by_cases hlist : syncOf (s.ch p).control = some .linkedList
    · simp only [startTransfer, hlist, execEngListStart_of_ready hs]
      split
      · exact sizeKnown_raise s (by simp)
      · split
        · exact sizeKnown_raise s (by simp)
        · exact sizeKnown_next hs.1
    · obtain ⟨n, hn⟩ : ∃ n, transferSize (s.ch p) = some n := by
        rw [← Option.ne_none_iff_exists', Ne, transferSize_eq_none_iff, syncOf_eq_none_iff]
        exact not_or.2 ⟨hlist, hsync⟩
      rw [startTransfer_of_size hs hn]
      exact sizeKnown_next hs.1
  · exact sizeKnown_next hs.1

theorem wrChannel_sizeKnown (p : Port) (r : ChannelReg) (val : Word) (s : State) : SizeKnown (wrChannel p r val s) := by
  cases r with
  | base =>
    rw [wrChannel_base]
    exact regFront_sizeKnown fun hs => afterChannelWrite_sizeKnown (s := s.begin.setBase p val) p hs
  | block =>
    rw [wrChannel_block]
    exact regFront_sizeKnown fun hs => afterChannelWrite_sizeKnown (s := s.begin.setBlock p val) p hs
  | chctl =>
    rw [wrChannel_chctl]
    refine regFront_sizeKnown fun hs => ?_
    split
    · exact sizeKnown_raise s.begin (by simp)
    · exact afterChannelWrite_sizeKnown (s := s.begin.setControl p val) p hs

theorem rdChannel_sizeKnown (p : Port) (r : ChannelReg) (s : State) : SizeKnown (rdChannel p r s) := by
  cases r with
  | base => rw [rdChannel_base]; exact regFront_sizeKnown fun hs => sizeKnown_next hs.1
  | block => rw [rdChannel_block]; exact regFront_sizeKnown fun hs => sizeKnown_next hs.1
  | chctl => rw [rdChannel_chctl]; exact regFront_sizeKnown fun hs => sizeKnown_next hs.1

theorem dmaRead_sizeKnown (T : Width) (o : BitVec 7) (s : State) : SizeKnown (dmaRead T o s) := by
  unfold dmaRead
  split
  · exact sizeKnown_raise s (by simp)
  · split
    · exact rdChannel_sizeKnown _ _ s
    · exact regFront_sizeKnown fun hs => sizeKnown_next hs.1
    · exact regFront_sizeKnown fun hs => sizeKnown_next hs.1
    · exact reservedFront_sizeKnown (by simp)

theorem dmaWrite_sizeKnown (o : BitVec 7) (v : Value) (s : State) : SizeKnown (dmaWrite o v s) := by
  unfold dmaWrite
  split
  · split
    · exact wrChannel_sizeKnown _ _ _ s
    · exact regFront_sizeKnown fun hs => sizeKnown_next hs.1
    · exact regFront_sizeKnown fun hs => sizeKnown_next hs.1
    · exact reservedFront_sizeKnown (by simp)
  · exact sizeKnown_raise s (by simp)
  · exact sizeKnown_raise s (by simp)

theorem exec_loadInstr_sizeKnown (T : Width) (addr : Word) (tg : Option Target) (s : State) :
    SizeKnown (exec (loadInstr T addr tg) s) := by
  cases tg with
  | none => exact unmappedFront_sizeKnown (by simp)
  | some tg =>
    cases tg with
    | dma => exact busFront_sizeKnown fun o _ => dmaRead_sizeKnown T _ s.begin
    | memCtl | ramSize | exp2 | cacheCtl => exact unmappedFront_sizeKnown (by simp)
    | ram | exp1 | bios | irq | timers | gpu | spu => exact busFront_sizeKnown fun _ hs => sizeKnown_next hs.1

theorem execStoreMemCtl_sizeKnown (addr : Word) (v : Value) (s : State) : SizeKnown (execStoreMemCtl addr v s) := by
  refine busFront_sizeKnown fun o hs => ?_
  split
  · exact sizeKnown_raise s.begin (by simp)
  · split
    · exact sizeKnown_raise s.begin (by simp)
    · exact sizeKnown_next hs.1

theorem execStoreCacheCtl_sizeKnown (addr : Word) (v : Value) (s : State) : SizeKnown (execStoreCacheCtl addr v s) := by
  refine busFront_sizeKnown fun o hs => ?_
  split
  · exact sizeKnown_next hs.1
  · exact sizeKnown_raise s.begin (by simp)
  · exact sizeKnown_raise s.begin (by simp)

theorem exec_storeInstr_sizeKnown (addr : Word) (v : Value) (tg : Option Target) (s : State) :
    SizeKnown (exec (storeInstr addr v tg) s) := by
  cases tg with
  | none => exact unmappedFront_sizeKnown (by simp)
  | some tg =>
    cases tg with
    | dma => exact busFront_sizeKnown fun o _ => dmaWrite_sizeKnown _ v s.begin
    | cacheCtl => exact execStoreCacheCtl_sizeKnown addr v s
    | memCtl => exact execStoreMemCtl_sizeKnown addr v s
    | exp1 | bios => exact unmappedFront_sizeKnown (by simp)
    | ram =>
      change SizeKnown (execStoreRam addr v s)
      exact busFront_sizeKnown fun _ hs => sizeKnown_next hs.1
    | gpu =>
      change SizeKnown (execStoreGpu addr v s)
      exact busFront_sizeKnown fun _ hs => sizeKnown_next hs.1
    | irq | timers | spu | ramSize | exp2 => exact busFront_sizeKnown fun _ hs => sizeKnown_next hs.1

/-- No request raises F11. -/
theorem decode_exec_sizeKnown {r : Request} {i : Instr} (hd : decode r = .ok i) (s : State) : SizeKnown (exec i s) := by
  cases r <;> simp only [decode] at hd <;> split at hd <;> cases hd
  case load => exact exec_loadInstr_sizeKnown _ _ _ s
  case store => exact exec_storeInstr_sizeKnown _ _ _ s
  case dmaRead => exact exec_rdInstr _ s ▸ dmaRead_sizeKnown _ _ s
  case dmaWrite => exact exec_wrInstr _ _ s ▸ dmaWrite_sizeKnown _ _ s

/-- No row of the running engine raises F11: the starts are rows of a register write (log entry 17). -/
theorem EngineStep.halt_ne {s t : State} (h : EngineStep s t) (hh : s.halt = none) (p : Port) :
    t.halt ≠ some (.dmaSizeIndeterminate p) := by
  cases h with
  | blockFromRamFatal | blockToRamFatal => simp
  | _ => simp [hh]

/-- Settles O54. -/
theorem sizeIsNeverIndeterminate : Obligations.SizeIsNeverIndeterminate := by
  intro s t p h
  obtain ⟨hh, ⟨-, -, rfl⟩ | ⟨r, rs, i, -, -, hd, hx⟩ | ⟨i, hse, -⟩⟩ := step_cases h
  · simp [hh]
  · exact decode_exec_sizeKnown hd _ t p hx
  · have hne : s.eng ≠ .idle := fun he => by simp [selectEngine_of_idle he] at hse
    exact (step_engineStep hne h).halt_ne hh p

end Sys2Proof.Machine

/-!
PROOF. The family 43_dma_linked_list.md: each row of the engine in linked-list mode (R254 to R259), the walk its steps make where
the walk ends (R260), and the lists that never end (R261).
-/

namespace Sys2Proof.Machine

/-! ### One row at a time -/

/-- Settles O38. -/
theorem listStepsReadTheHeaderAndForwardTheWords : Obligations.ListStepsReadTheHeaderAndForwardTheWords :=
  ⟨fun _ _ hh he => (engListHeader_runs hh he).2, fun _ _ _ _ hh he hl => (engListWord_runs hh he hl).2⟩

/-- The end test reads one bit of the header, whatever the others (R258). -/
theorem headerEnd_eq_false_iff (header : Word) : headerEnd header = false ↔ header &&& 0x00800000#32 = 0#32 := by
  change headerEnd header = false ↔ header &&& BitVec.twoPow 32 Config.llEndBit = 0#32
  rw [BitVec.and_twoPow, headerEnd]
  cases header.getLsbD Config.llEndBit <;> decide

/-- Settles O39. -/
theorem listEndTestIsBitTwentyThree : Obligations.ListEndTestIsBitTwentyThree := by
  refine fun addr header s hh he => ⟨fun hbit => ?_, fun hbit => ?_⟩
  · obtain ⟨hsel, hx⟩ := engListNext_runs hh he ((headerEnd_eq_false_iff header).2 hbit)
    exact ⟨hx, step_of_selectEngine hh hsel⟩
  · rw [Ne, ← headerEnd_eq_false_iff, Bool.not_eq_false] at hbit
    obtain ⟨hsel, hx⟩ := engListEnd_runs hh he hbit
    exact ⟨hx, step_of_selectEngine hh hsel⟩

/-! ### The walk, one packet at a time -/

theorem walk_succ_of_end {s : State} {c : Word} (hend : headerEnd (s.ramWord c) = true) (k : Nat) :
    walk s (k + 1) c = some (packetWords s (headerCount (s.ramWord c)).toNat c) := by
  rw [walk, hend]
  rfl

theorem walk_succ_of_not_end {s : State} {c : Word} (hend : headerEnd (s.ramWord c) = false) (k : Nat) :
    walk s (k + 1) c = (walk s k (windowAddr (s.ramWord c))).map
      (packetWords s (headerCount (s.ramWord c)).toNat c ++ ·) := by
  rw [walk, hend]
  rfl

/-- A walk does not end within `k + 1` packets: its first header does not end it, nor do the `k` packets that follow. -/
theorem walk_succ_eq_none_iff (s : State) (k : Nat) (c : Word) :
    walk s (k + 1) c = none ↔ headerEnd (s.ramWord c) = false ∧ walk s k (windowAddr (s.ramWord c)) = none := by
  cases hend : headerEnd (s.ramWord c) with
  | false => simp [walk_succ_of_not_end hend]
  | true => simp [walk_succ_of_end hend]

/-! ### Forwarding words -/

/-- The state once words have been forwarded to the video port, first of them first (R40, R255). -/
def State.forward (s : State) (ws : List GpuEvent) : State := { s with gpuTrace := s.gpuTrace ++ ws }

section
variable (s : State) (ws : List GpuEvent)

@[simp] theorem State.forward_halt : (s.forward ws).halt = s.halt := rfl

@[simp] theorem State.forward_nil : s.forward [] = s := by simp [State.forward]

@[simp] theorem State.forward_forward (vs : List GpuEvent) : (s.forward ws).forward vs = s.forward (ws ++ vs) := by
  simp [State.forward]

@[simp] theorem State.forward_ramWord (x : Word) : (s.forward ws).ramWord x = s.ramWord x := rfl

/-- What is forwarded does not depend on what was forwarded before. -/
@[simp] theorem packetWords_forward (k : Nat) (addr : Word) :
    packetWords (s.forward ws) k addr = packetWords s k addr := by
  induction k generalizing addr with
  | zero => rfl
  | succ k ih => simp [packetWords, ih]

@[simp] theorem walk_forward (k : Nat) (c : Word) : walk (s.forward ws) k c = walk s k c := by
  induction k generalizing c with
  | zero => rfl
  | succ k ih => simp [walk, ih]

end

/-! ### The steps are the walk of R260 -/

section
variable {s : State} (hh : s.halt = none)
include hh

/-- As many steps as words are left forward the rest of a packet (R255, R256). -/
theorem run_listPayload {k : Nat} {left : Byte} (hk : left.toNat = k) (addr header : Word) :
    ∃ a, run k (s.setEng (.listPayload addr left header)) =
      .next ((s.forward (packetWords s k addr)).setEng (.listPayload a 0#8 header)) := by
  induction k generalizing s left addr with
  | zero =>
    obtain rfl : left = 0#8 := BitVec.eq_of_toNat_eq hk
    exact ⟨addr, by simp [run, packetWords]⟩
  | succ k ih =>
    have hl : left ≠ 0#8 := by rintro rfl; simp at hk
    have hstep := step_of_runs (s := s.setEng (.listPayload addr left header)) hh (engListWord_runs hh rfl hl)
    obtain ⟨a, ha⟩ := ih (s := s.forward [.gp0 (s.ramWord (windowAddr (addr + 4#32)))]) hh (left := left - 1#8)
      (by bv_omega) (windowAddr (addr + 4#32))
    rw [packetWords_forward, State.forward_forward] at ha
    exact ⟨a, (run_succ_of_step hstep k).trans ha⟩

/-- With no word left and the end bit clear the step goes to the next header (R257). -/
theorem step_listNext (addr : Word) {header : Word} (hend : headerEnd header = false) :
    step (s.setEng (.listPayload addr 0#8 header)) = .next (s.setEng (.listHeader (windowAddr header))) :=
  step_of_runs hh (engListNext_runs hh rfl hend)

/-- With no word left and the end bit set the step is the completion (R259). -/
theorem step_listEnd (addr : Word) {header : Word} (hend : headerEnd header = true) :
    step (s.setEng (.listPayload addr 0#8 header)) = done .gpu s :=
  step_of_runs hh (engListEnd_runs hh rfl hend)

/-- The steps of one packet, from its header until no word is left (R254 to R256). -/
theorem run_packet (c : Word) :
    ∃ n a, run n (s.setEng (.listHeader c)) =
      .next ((s.forward (packetWords s (headerCount (s.ramWord c)).toNat c)).setEng
        (.listPayload a 0#8 (s.ramWord c))) := by
  have hstep := step_of_runs (s := s.setEng (.listHeader c)) hh (engListHeader_runs hh rfl)
  obtain ⟨a, ha⟩ := run_listPayload hh rfl c (s.ramWord c)
  exact ⟨_, a, (run_succ_of_step hstep _).trans ha⟩

/-- Where the walk ends the steps forward its words and are done (R260; log entry 30). -/
theorem run_eq_done_of_walk {k : Nat} {c : Word} {ws : List GpuEvent} (hw : walk s k c = some ws) :
    ∃ n, run n (s.setEng (.listHeader c)) = done .gpu (s.forward ws) := by
  induction k generalizing s c ws with
  | zero => exact nomatch hw
  | succ k ih =>
    obtain ⟨n, a, hpacket⟩ := run_packet hh c
    cases hend : headerEnd (s.ramWord c) with
    | true =>
      obtain rfl := Option.some.inj ((walk_succ_of_end hend k).symm.trans hw)
      refine ⟨n + 1, ?_⟩
      rw [run_add_of_run hpacket, run_one, step_listEnd (by simpa using hh) a hend]
    | false =>
      rw [walk_succ_of_not_end hend, Option.map_eq_some_iff] at hw
      obtain ⟨vs, hw, rfl⟩ := hw
      obtain ⟨m, hm⟩ := ih (s := s.forward (packetWords s (headerCount (s.ramWord c)).toNat c)) hh
        ((walk_forward ..).trans hw)
      rw [State.forward_forward] at hm
      refine ⟨n + (m + 1), ?_⟩
      rw [run_add_of_run hpacket, run_succ_of_step (step_listNext (by simpa using hh) a hend), hm]

end

/-- Settles O59. -/
theorem listStepsEqualTheWalk : Obligations.ListStepsEqualTheWalk := by
  intro c s k ws hh he hw
  obtain ⟨n, hn⟩ := run_eq_done_of_walk hh hw
  rw [State.setEng_of_eng he] at hn
  exact ⟨n, hn⟩

/-! ### Lists that never end -/

/-- The walk from an address ends within no number of packets (R261). -/
def Endless (s : State) (c : Word) : Prop := ∀ k, walk s k c = none

theorem endless_iff (s : State) (c : Word) :
    Endless s c ↔ headerEnd (s.ramWord c) = false ∧ Endless s (windowAddr (s.ramWord c)) := by
  constructor
  · intro h
    have hnext (k : Nat) := (walk_succ_eq_none_iff s k c).1 (h (k + 1))
    exact ⟨(hnext 0).1, fun k => (hnext k).2⟩
  · rintro ⟨hend, hnext⟩ k
    cases k with
    | zero => rfl
    | succ k => exact (walk_succ_eq_none_iff s k c).2 ⟨hend, hnext k⟩

/-- The engine is in a list that does not end: at a header of it, or in a packet that is followed by one. -/
def Engine.inEndlessList (s : State) : Engine → Prop
  | .listHeader c => Endless s c
  | .listPayload _ _ header => headerEnd header = false ∧ Endless s (windowAddr header)
  | _ => False

/-- What a list that does not end keeps, from the state `s` in which it was entered. -/
structure ListRunning (s t : State) : Prop where
  halt : t.halt = none
  eng : t.eng.inEndlessList s
  ram : t.ram = s.ram
  reply : t.reply = s.reply

theorem ListRunning.ramWord {s t : State} (h : ListRunning s t) (x : Word) : t.ramWord x = s.ramWord x :=
  State.ramWord_congr fun i _ => by simp only [State.ramByte, h.ram]

/-- The step answers a next state, in which the list still runs: its end is the only row not taken. -/
theorem ListRunning.step_next {s t : State} (h : ListRunning s t) : ∃ u, step t = .next u ∧ ListRunning s u := by
  have heng := h.eng
  cases he : t.eng with
  | idle | block => exact (he ▸ heng).elim
  | listHeader c =>
    rw [he] at heng
    refine ⟨_, step_of_runs h.halt (engListHeader_runs h.halt he), h.halt, ?_, h.ram, h.reply⟩
    rw [h.ramWord]
    exact (endless_iff s c).1 heng
  | listPayload addr left header =>
    rw [he] at heng
    by_cases hl : left = 0#8
    · subst hl
      exact ⟨_, step_of_runs h.halt (engListNext_runs h.halt he heng.1), h.halt, heng.2, h.ram, h.reply⟩
    · exact ⟨_, step_of_runs h.halt (engListWord_runs h.halt he hl), h.halt, heng, h.ram, h.reply⟩

theorem ListRunning.run_next {s t : State} (h : ListRunning s t) (n : Nat) : ∃ u, run n t = .next u ∧ ListRunning s u := by
  induction n generalizing t with
  | zero => exact ⟨t, rfl, h⟩
  | succ n ih =>
    obtain ⟨u, hstep, hu⟩ := h.step_next
    rw [run_succ_of_step hstep]
    exact ih hu

theorem ListRunning.eng_ne_idle {s t : State} (h : ListRunning s t) : t.eng ≠ .idle := by
  intro he
  have heng := h.eng
  rwa [he] at heng

/-- A chain of headers without the end bit that returns to a header it has left: by induction on the packets walked, from each
of its headers, for each has the next one in the chain (R261). -/
theorem endless_of_returning_chain {s : State} {c : Nat → Word} {n m : Nat} (hnm : n < m) (hret : c m = c n)
    (hchain : ∀ i < m, headerEnd (s.ramWord (c i)) = false ∧ c (i + 1) = windowAddr (s.ramWord (c i))) {i : Nat}
    (hi : i < m) : Endless s (c i) := by
  intro k
  induction k generalizing i with
  | zero => rfl
  | succ k ih =>
    obtain ⟨hend, hnext⟩ := hchain i hi
    rw [walk_succ_eq_none_iff, ← hnext]
    refine ⟨hend, ?_⟩
    rcases (Nat.succ_le_of_lt hi).lt_or_eq with hlt | rfl
    · exact ih hlt
    · rw [hret]
      exact ih hnm

/-- Settles O60. -/
theorem unterminatedListsRunForever : Obligations.UnterminatedListsRunForever := by
  refine ⟨fun c s hh he hw n => ?_, fun s c n m hnm hret hchain => ?_⟩
  · have hstart : ListRunning s s := ⟨hh, by rw [he]; exact hw, rfl, rfl⟩
    obtain ⟨t, hrun, ht⟩ := hstart.run_next n
    exact ⟨t, hrun, ht.halt, ht.eng_ne_idle, ht.ram, ht.reply⟩
  · simp only [← headerEnd_eq_false_iff] at hchain
    exact endless_of_returning_chain hnm hret hchain (Nat.zero_lt_of_lt hnm)

end Sys2Proof.Machine

/-!
PROOF. The family 60_exceptions.md, its refusals: a misaligned request ends in its rejection (R71, R304 (a)), and the front of every
row a request decodes to turns the operation away while the block is halted or its engine runs (R304 (b)).
-/

namespace Sys2Proof.Machine

/-! ### A rejected request -/

/-- The ready block refuses a request the decoder rejects. -/
theorem step_of_decode_error {s : State} {r : Request} {rs : List Request} {e : DecodeError} (hs : s.ready)
    (hr : s.requests = r :: rs) (hd : decode r = .error e) : step s = .refused (rejection e) := by
  simp [step, fetch, fetchRequest, hs.1, selectEngine_of_idle hs.2, hr, hd]

/-! ### The fronts of a busy block -/

/-- Busy is the state R304 (b) names: halted, or the engine not idle. -/
theorem State.busy_eq_true_iff (s : State) : s.busy = true ↔ s.halt ≠ none ∨ s.eng ≠ .idle := by
  rw [← Bool.not_eq_false, State.busy_eq_false_iff, not_and_or]

section
variable {s : State} (hs : s.busy = true)
include hs

theorem busFront_of_busy (T : Width) (addr : Word) (tg : Target) (k : Word → State → Out) :
    busFront T addr tg s k = .refused .notAccepted := if_pos hs

theorem unmappedFront_of_busy (T : Width) (addr : Word) (tg : Option Target) (k : State → Out) :
    unmappedFront T addr tg s k = .refused .notAccepted := if_pos hs

theorem regFront_of_busy (k : State → Out) : regFront s k = .refused .notAccepted := if_pos hs

theorem reservedFront_of_busy (off : BitVec 7) (k : State → Out) :
    reservedFront off s k = .refused .notAccepted := regFront_of_busy hs _

/-! ### The rows a request decodes to, in a busy block -/

/-- The row of a load is a bus operation of its range, or of no range. -/
theorem exec_loadInstr_of_busy (T : Width) (addr : Word) (tg : Option Target) :
    exec (loadInstr T addr tg) s = .refused .notAccepted := by
  cases tg with
  | none => exact unmappedFront_of_busy hs ..
  | some tg =>
    cases tg with
    | memCtl | ramSize | exp2 | cacheCtl => exact unmappedFront_of_busy hs ..
    | ram | exp1 | bios | irq | dma | timers | gpu | spu => exact busFront_of_busy hs ..

/-- The row of a store is a bus operation of its range, or of no range. -/
theorem exec_storeInstr_of_busy (addr : Word) (v : Value) (tg : Option Target) :
    exec (storeInstr addr v tg) s = .refused .notAccepted := by
  cases tg with
  | none => exact unmappedFront_of_busy hs ..
  | some tg =>
    cases tg with
    | exp1 | bios => exact unmappedFront_of_busy hs ..
    | ram | irq | dma | timers | gpu | spu | memCtl | ramSize | exp2 | cacheCtl =>
      simp only [storeInstr, exec]
      exact busFront_of_busy hs ..

theorem rdChannel_of_busy (p : Port) (r : ChannelReg) : rdChannel p r s = .refused .notAccepted := by
  cases r with
  | base => rw [rdChannel_base]; exact regFront_of_busy hs _
  | block => rw [rdChannel_block]; exact regFront_of_busy hs _
  | chctl => rw [rdChannel_chctl]; exact regFront_of_busy hs _

theorem wrChannel_of_busy (p : Port) (r : ChannelReg) (val : Word) :
    wrChannel p r val s = .refused .notAccepted := by
  cases r with
  | base => rw [wrChannel_base]; exact regFront_of_busy hs _
  | block => rw [wrChannel_block]; exact regFront_of_busy hs _
  | chctl => rw [wrChannel_chctl]; exact regFront_of_busy hs _

/-- Every register a read by offset can select is behind a register front. -/
theorem exec_rdInstr_of_busy (off : BitVec 7) : exec (rdInstr off) s = .refused .notAccepted := by
  rw [exec_rdInstr]
  simp only [dmaRead]
  cases regSel off with
  | channel p r => exact rdChannel_of_busy hs p r
  | dmaCtl | dmaIrq => exact regFront_of_busy hs _
  | reserved => exact reservedFront_of_busy hs off _

/-- Every register a write by offset can select is behind a register front. -/
theorem exec_wrInstr_of_busy (off : BitVec 7) (val : Word) : exec (wrInstr off val) s = .refused .notAccepted := by
  rw [exec_wrInstr]
  simp only [dmaWrite]
  cases regSel off with
  | channel p r => exact wrChannel_of_busy hs p r val
  | dmaCtl | dmaIrq => exact regFront_of_busy hs _
  | reserved => exact reservedFront_of_busy hs off _

/-- A busy block accepts no operation of the CPU, whatever the request (R304 (b)). -/
theorem decode_exec_of_busy {r : Request} {i : Instr} (hd : decode r = .ok i) : exec i s = .refused .notAccepted := by
  cases r <;> simp only [decode] at hd <;> split at hd <;> cases hd
  case load => exact exec_loadInstr_of_busy hs ..
  case store => exact exec_storeInstr_of_busy hs ..
  case dmaRead => exact exec_rdInstr_of_busy hs _
  case dmaWrite => exact exec_wrInstr_of_busy hs ..

end

/-- Settles O43: the decoder rejects exactly the misaligned requests, and what it accepts a busy block refuses. -/
theorem misalignedAndUnacceptedOperationsAreRefused : Obligations.MisalignedAndUnacceptedOperationsAreRefused := by
  obtain ⟨-, hload, hstore, -, -⟩ := decodedInstructionsAreWellFormed
  refine ⟨fun s T addr rs hs hr ha => ?_, fun s addr v rs hs hr ha => ?_, fun r i s hd hb => ?_⟩
  · exact step_of_decode_error hs hr ((hload T addr).2 ha)
  · exact step_of_decode_error hs hr ((hstore addr v).2 ha)
  · exact decode_exec_of_busy ((State.busy_eq_true_iff s).2 hb) hd

end Sys2Proof.Machine
